-- ==== Sys2Proof/Word.lean ====
section
/-! DEFINITION. The words of the Roentgenium prefix decoder: the 32-bit cell, the 6-bit Letter Table position, the
characters given to PACK. -/

namespace Sys2Proof

/-- A cell: an unsigned 32-bit value, bit 0 the least significant (00_scope.md R5, R6; 30_encoding.md R50). -/
abbrev Cell := BitVec 32

/-- A Letter Table position, 0..47 (10_state.md R10). -/
abbrev Position := Fin 48

/-- The 48 glyphs of the Letter Table, by name (10_state.md R10). A name stands for the printed glyph and for no character
code (91_not_in_source.md N16); the table's order is `letterTable`. -/
inductive Glyph where
  | space | r | t | o | e | a | n | i | s | m | c | y
  | l | g | f | w | d | v | p | b | h | x | u | q
  | digit0 | digit1 | digit2 | digit3 | digit4 | digit5 | digit6 | digit7 | digit8 | digit9 | j | minus
  | k | dot | z | slash | semicolon | colon | bang | plus | atSign | star | comma | question
deriving DecidableEq, Repr

/-- The characters a command carries: the 48 glyphs and any number of other characters, told apart by a number. CHAR is an
OPEN parameter that contains the 48 glyphs (00_scope.md R4; 92_eei_decisions.md D16): LOOKUP and PACK take the character type
as an argument (`lookupIn`, `packLoop`), and every CHAR maps into this one with the same result (log 9). -/
inductive CHAR where
  /-- One of the 48 glyphs of R10. -/
  | glyph (symbol : Glyph)
  /-- A character that is none of the 48 glyphs (R81). -/
  | other (n : Nat)
deriving DecidableEq, Repr

end Sys2Proof
end

