-- ==== Sys2Proof/Machine/LetterTable.lean ====
section
/-! DEFINITION. The Letter Table unit: the 48 symbols, their groups and codewords, LOOKUP and SYMBOL_OF. -/

namespace Sys2Proof.Machine

/-- The Letter Table in its canonical order, positions 0..47 (10_state.md R10). A constant: nothing writes it. -/
def letterTable : List Glyph :=
  [.space, .r, .t, .o, .e, .a, .n, .i] ++
  [.s, .m, .c, .y, .l, .g, .f, .w] ++
  [.d, .v, .p, .b, .h, .x, .u, .q, .digit0, .digit1, .digit2, .digit3, .digit4, .digit5, .digit6, .digit7] ++
  [.digit8, .digit9, .j, .minus, .k, .dot, .z, .slash, .semicolon, .colon, .bang, .plus, .atSign, .star, .comma, .question]

/-- LT[p], the glyph at position p (10_state.md R10). -/
def glyphAt (p : Position) : Glyph := letterTable.getD p.val .space

/-- The symbol at position p as a character that PACK can be given. -/
def symbolAt (p : Position) : CHAR := .glyph (glyphAt p)

/-- One codeword: its group, and the suffix that selects the symbol in the group (10_state.md R11; 30_encoding.md R56). -/
inductive Codeword where
  /-- Group 0, format CW4: prefix `0` and a 3-bit suffix. -/
  | cw4 (suffix : BitVec 3)
  /-- Group 1, format CW5: prefix `10` and a 3-bit suffix. -/
  | cw5 (suffix : BitVec 3)
  /-- Group 2, format CW7: prefix `11` and a 5-bit suffix. -/
  | cw7 (suffix : BitVec 5)
deriving DecidableEq, Repr

/-- The length of a codeword in bits (30_encoding.md R56, R58). -/
def Codeword.length : Codeword → Nat
  | .cw4 _ => 4
  | .cw5 _ => 5
  | .cw7 _ => 7

/-- The codeword as an unsigned number of its own length: prefix, then suffix (30_encoding.md R56). -/
def Codeword.value : Codeword → Nat
  | .cw4 suffix => (0b0#1 ++ suffix).toNat
  | .cw5 suffix => (0b10#2 ++ suffix).toNat
  | .cw7 suffix => (0b11#2 ++ suffix).toNat

/-- The codeword of position p: its group G(p) and suffix S(p) (10_state.md R11). -/
def codewordOf (p : Position) : Codeword :=
  if p.val < 8 then .cw4 (BitVec.ofNat 3 p.val)
  else if p.val < 16 then .cw5 (BitVec.ofNat 3 (p.val - 8))
  else .cw7 (BitVec.ofNat 5 (p.val - 16))

/-- SYMBOL_OF(g, s): the position a codeword names, total by construction (40_letter_table.md R82). -/
def symbolOf : Codeword → Position
  | .cw4 suffix => ⟨suffix.toNat, by have := suffix.isLt; omega⟩
  | .cw5 suffix => ⟨8 + suffix.toNat, by have := suffix.isLt; omega⟩
  | .cw7 suffix => ⟨16 + suffix.toNat, by have := suffix.isLt; omega⟩

/-- The first position of `table`, the first of them numbered `k`, that holds `ch`. -/
def findSymbol {α : Type} [DecidableEq α] (ch : α) : List α → Nat → Option Nat
  | [], _ => none
  | c :: table, k => if c = ch then some k else findSymbol ch table (k + 1)

/-- LOOKUP(ch) over a character type α whose 48 glyphs `glyph` names: the position whose symbol is exactly `ch`, or none
(UnknownSymbol) (40_letter_table.md R81; the OPEN parameter CHAR of 00_scope.md R4 is the argument α). Its group, suffix and
codeword are `codewordOf` of that position. -/
def lookupIn {α : Type} [DecidableEq α] (glyph : Glyph → α) (ch : α) : Option Position :=
  match findSymbol ch (letterTable.map glyph) 0 with
  | some k => if h : k < 48 then some ⟨k, h⟩ else none
  | none => none

/-- LOOKUP on the characters a command carries. -/
def lookup (ch : CHAR) : Option Position := lookupIn CHAR.glyph ch

end Sys2Proof.Machine
end

