-- ==== Sys2Proof/Syntax.lean ====
section
/-! DEFINITION. The instructions: one constructor for each row of spec/opcode_table.json, in the table's order. -/

namespace Sys2Proof

/-- A view over the Cell Store: view index a names the store element base + a, for a < len (20_memory.md R31).
`len` is VIEW_LEN. -/
structure View where
  base : Nat
  len : Nat
deriving DecidableEq, Repr

/-- What the host presents with a command: the 2-bit code CMD and the operands beside it (30_encoding.md R61). A command
reads the operands of its own row and ignores the others. -/
structure Request where
  cmd : BitVec 2
  word : List CHAR
  cell : Cell
  view : View
  block : Nat
deriving DecidableEq, Repr

/-- What the RPD decodes: the host's commands (30_encoding.md R61), the cells RUN_BLOCK reads (R51, R52) and the
codewords UNPACK reads (R56). A command carries its operands, a text cell its 28-bit payload (bits 31..4), a numeric
cell its 27-bit value (bits 31..5) and the ignored bit 4 (R53); a codeword is one Letter Table position. -/
inductive Instr where
  /-- PACK, CMD 00 (41_word_codec.md R100), on a word over any CHAR (00_scope.md R4; log 9). -/
  | pack (w : List CHAR)
  /-- UNPACK, CMD 01 (41_word_codec.md R110). -/
  | unpack (c : Cell)
  /-- RUN_BLOCK, CMD 10 (42_block_interpreter.md R130). -/
  | runBlock (view : View) (n : Nat)
  /-- The reserved command code, CMD 11 (60_exceptions.md R177). -/
  | reservedCmd
  /-- The all-zero cell (30_encoding.md R51). -/
  | sentinel
  /-- Tag 0 with a nonzero payload: skipped (R140). -/
  | cellTag0Skip (payload : BitVec 28)
  /-- Tag 1: class A, text (R141). -/
  | cellTag1TextA (payload : BitVec 28)
  /-- Tag 2: class A, numeric (R142). -/
  | cellTag2NumA (value : BitVec 27) (bit4 : BitVec 1)
  /-- Tag 3: class B, text (R143). -/
  | cellTag3DefB (payload : BitVec 28)
  /-- Tag 4: class C, text (R144). -/
  | cellTag4TextC (payload : BitVec 28)
  /-- Tag 5: class C, numeric (R145). -/
  | cellTag5NumC5 (value : BitVec 27) (bit4 : BitVec 1)
  /-- Tag 6: class C, numeric (R146). -/
  | cellTag6NumC6 (value : BitVec 27) (bit4 : BitVec 1)
  /-- Tag 7: class D, text (R147). -/
  | cellTag7TextD (payload : BitVec 28)
  /-- Tag 8: class A, numeric (R148). -/
  | cellTag8NumA8 (value : BitVec 27) (bit4 : BitVec 1)
  /-- Tag 9: class E, text (R149). -/
  | cellTag9TextE9 (payload : BitVec 28)
  /-- Tag 10: class E, text (R150). -/
  | cellTag10TextE10 (payload : BitVec 28)
  /-- Tag 11: class E, text (R151). -/
  | cellTag11TextE11 (payload : BitVec 28)
  /-- Tag 12: class F, text (R152). -/
  | cellTag12TextF (payload : BitVec 28)
  /-- Tag 13: default arm, colour unchanged, text (R153). -/
  | cellTag13TextDefault13 (payload : BitVec 28)
  /-- Tag 14: default arm, colour unchanged, text (R154). -/
  | cellTag14TextDefault14 (payload : BitVec 28)
  /-- Tag 15: class E, numeric (R155). -/
  | cellTag15NumE (value : BitVec 27) (bit4 : BitVec 1)
  /-- CW4 `0000`: position 0 (R80, R82). -/
  | sym0Space
  /-- CW4 `0001`: position 1 (R80, R82). -/
  | sym1R
  /-- CW4 `0010`: position 2 (R80, R82). -/
  | sym2T
  /-- CW4 `0011`: position 3 (R80, R82). -/
  | sym3O
  /-- CW4 `0100`: position 4 (R80, R82). -/
  | sym4E
  /-- CW4 `0101`: position 5 (R80, R82). -/
  | sym5A
  /-- CW4 `0110`: position 6 (R80, R82). -/
  | sym6N
  /-- CW4 `0111`: position 7 (R80, R82). -/
  | sym7I
  /-- CW5 `10000`: position 8 (R80, R82). -/
  | sym8S
  /-- CW5 `10001`: position 9 (R80, R82). -/
  | sym9M
  /-- CW5 `10010`: position 10 (R80, R82). -/
  | sym10C
  /-- CW5 `10011`: position 11 (R80, R82). -/
  | sym11Y
  /-- CW5 `10100`: position 12 (R80, R82). -/
  | sym12L
  /-- CW5 `10101`: position 13 (R80, R82). -/
  | sym13G
  /-- CW5 `10110`: position 14 (R80, R82). -/
  | sym14F
  /-- CW5 `10111`: position 15 (R80, R82). -/
  | sym15W
  /-- CW7 `1100000`: position 16 (R80, R82). -/
  | sym16D
  /-- CW7 `1100001`: position 17 (R80, R82). -/
  | sym17V
  /-- CW7 `1100010`: position 18 (R80, R82). -/
  | sym18P
  /-- CW7 `1100011`: position 19 (R80, R82). -/
  | sym19B
  /-- CW7 `1100100`: position 20 (R80, R82). -/
  | sym20H
  /-- CW7 `1100101`: position 21 (R80, R82). -/
  | sym21X
  /-- CW7 `1100110`: position 22 (R80, R82). -/
  | sym22U
  /-- CW7 `1100111`: position 23 (R80, R82). -/
  | sym23Q
  /-- CW7 `1101000`: position 24 (R80, R82). -/
  | sym24Digit0
  /-- CW7 `1101001`: position 25 (R80, R82). -/
  | sym25Digit1
  /-- CW7 `1101010`: position 26 (R80, R82). -/
  | sym26Digit2
  /-- CW7 `1101011`: position 27 (R80, R82). -/
  | sym27Digit3
  /-- CW7 `1101100`: position 28 (R80, R82). -/
  | sym28Digit4
  /-- CW7 `1101101`: position 29 (R80, R82). -/
  | sym29Digit5
  /-- CW7 `1101110`: position 30 (R80, R82). -/
  | sym30Digit6
  /-- CW7 `1101111`: position 31 (R80, R82). -/
  | sym31Digit7
  /-- CW7 `1110000`: position 32 (R80, R82). -/
  | sym32Digit8
  /-- CW7 `1110001`: position 33 (R80, R82). -/
  | sym33Digit9
  /-- CW7 `1110010`: position 34 (R80, R82). -/
  | sym34J
  /-- CW7 `1110011`: position 35 (R80, R82). -/
  | sym35Minus
  /-- CW7 `1110100`: position 36 (R80, R82). -/
  | sym36K
  /-- CW7 `1110101`: position 37 (R80, R82). -/
  | sym37Dot
  /-- CW7 `1110110`: position 38 (R80, R82). -/
  | sym38Z
  /-- CW7 `1110111`: position 39 (R80, R82). -/
  | sym39Slash
  /-- CW7 `1111000`: position 40 (R80, R82). -/
  | sym40Semicolon
  /-- CW7 `1111001`: position 41 (R80, R82). -/
  | sym41Colon
  /-- CW7 `1111010`: position 42 (R80, R82). -/
  | sym42Bang
  /-- CW7 `1111011`: position 43 (R80, R82). -/
  | sym43Plus
  /-- CW7 `1111100`: position 44 (R80, R82). -/
  | sym44At
  /-- CW7 `1111101`: position 45 (R80, R82). -/
  | sym45Star
  /-- CW7 `1111110`: position 46 (R80, R82). -/
  | sym46Comma
  /-- CW7 `1111111`: position 47 (R80, R82). -/
  | sym47Question
deriving DecidableEq, Repr

end Sys2Proof
end

