-- ==== Sys2Proof/WellFormed.lean ====
section
/-! DEFINITION. Which instruction terms stand for an encoding. -/

namespace Sys2Proof

/-- A tag-0 cell has a nonzero payload: the all-zero cell is the sentinel (30_encoding.md R51; R140). Every other
operand value of every other instruction has an encoding (R52, R57, R61). -/
def Instr.wellFormed : Instr → Bool
  | .cellTag0Skip payload => payload != 0#28
  | _ => true

/-- `Instr.wellFormed` as a proposition. -/
abbrev Instr.WellFormed (i : Instr) : Prop := i.wellFormed = true

end Sys2Proof
end

