-- ==== Sys2Proof/Decode.lean ====
section
/-! DEFINITION. The three decoders of 30_encoding.md: commands (R61), cells (R50 to R53) and codewords (R55 to R58); the
encoder of every instruction; the opcode table's numbering. -/

namespace Sys2Proof

open Sys2Proof.Machine (Codeword symbolOf)

/-! ### Fields of a cell -/

/-- `tag = cell[3:0]` (30_encoding.md R50). -/
def cellTag (c : Cell) : BitVec 4 := c.extractLsb' 0 4

/-- `payload = cell[31:4]` (R50). -/
def cellPayload (c : Cell) : BitVec 28 := c.extractLsb' 4 28

/-- The numeric literal `cell >> 5 = cell[31:5]`, 27 bits (R53). -/
def cellValue (c : Cell) : BitVec 27 := c.extractLsb' 5 27

/-- Cell bit 4, which is not part of a numeric literal (R53). -/
def cellBit4 (c : Cell) : BitVec 1 := c.extractLsb' 4 1

/-- The text cell of a payload and a tag (R50). -/
def textCell (payload : BitVec 28) (tag : BitVec 4) : Cell := payload ++ tag

/-- The numeric cell of a value, an ignored bit 4 and a tag (R53). -/
def numCell (value : BitVec 27) (bit4 : BitVec 1) (tag : BitVec 4) : Cell := value ++ bit4 ++ tag

/-! ### Commands -/

/-- The command of a request (R61): the 2-bit code space is complete, so nothing is refused. -/
def decodeCommand (r : Request) : Instr :=
  match r.cmd.toNat with
  | 0 => .pack r.word
  | 1 => .unpack r.cell
  | 2 => .runBlock r.view r.block
  | _ => .reservedCmd

/-! ### Cells -/

/-- The arm of a nonzero cell (R52): one for each of the 16 tags. -/
def decodeTagged (c : Cell) : Instr :=
  match (cellTag c).toNat with
  | 0 => .cellTag0Skip (cellPayload c)
  | 1 => .cellTag1TextA (cellPayload c)
  | 2 => .cellTag2NumA (cellValue c) (cellBit4 c)
  | 3 => .cellTag3DefB (cellPayload c)
  | 4 => .cellTag4TextC (cellPayload c)
  | 5 => .cellTag5NumC5 (cellValue c) (cellBit4 c)
  | 6 => .cellTag6NumC6 (cellValue c) (cellBit4 c)
  | 7 => .cellTag7TextD (cellPayload c)
  | 8 => .cellTag8NumA8 (cellValue c) (cellBit4 c)
  | 9 => .cellTag9TextE9 (cellPayload c)
  | 10 => .cellTag10TextE10 (cellPayload c)
  | 11 => .cellTag11TextE11 (cellPayload c)
  | 12 => .cellTag12TextF (cellPayload c)
  | 13 => .cellTag13TextDefault13 (cellPayload c)
  | 14 => .cellTag14TextDefault14 (cellPayload c)
  | _ => .cellTag15NumE (cellValue c) (cellBit4 c)

/-- The instruction of a cell: all 32 bits are compared with zero before the tag is looked at (R51). Total: every tag value
has an arm (R62). -/
def decodeCell (c : Cell) : Instr :=
  if c = 0#32 then .sentinel else decodeTagged c

/-! ### Codewords -/

/-- CLASSIFY on the next seven bits of a stream, the first of them in bit 6 (30_encoding.md R55; 41_word_codec.md R111): the
second bit is examined only when the first is 1. -/
def classify (window : BitVec 7) : Codeword :=
  if window.getLsbD 6 = false then .cw4 (window.extractLsb' 3 3)
  else if window.getLsbD 5 = false then .cw5 (window.extractLsb' 2 3)
  else .cw7 (window.extractLsb' 0 5)

/-- The codeword instruction of each Letter Table position (40_letter_table.md R80). -/
def symInstr (p : Position) : Instr :=
  match p.val with
  | 0 => .sym0Space
  | 1 => .sym1R
  | 2 => .sym2T
  | 3 => .sym3O
  | 4 => .sym4E
  | 5 => .sym5A
  | 6 => .sym6N
  | 7 => .sym7I
  | 8 => .sym8S
  | 9 => .sym9M
  | 10 => .sym10C
  | 11 => .sym11Y
  | 12 => .sym12L
  | 13 => .sym13G
  | 14 => .sym14F
  | 15 => .sym15W
  | 16 => .sym16D
  | 17 => .sym17V
  | 18 => .sym18P
  | 19 => .sym19B
  | 20 => .sym20H
  | 21 => .sym21X
  | 22 => .sym22U
  | 23 => .sym23Q
  | 24 => .sym24Digit0
  | 25 => .sym25Digit1
  | 26 => .sym26Digit2
  | 27 => .sym27Digit3
  | 28 => .sym28Digit4
  | 29 => .sym29Digit5
  | 30 => .sym30Digit6
  | 31 => .sym31Digit7
  | 32 => .sym32Digit8
  | 33 => .sym33Digit9
  | 34 => .sym34J
  | 35 => .sym35Minus
  | 36 => .sym36K
  | 37 => .sym37Dot
  | 38 => .sym38Z
  | 39 => .sym39Slash
  | 40 => .sym40Semicolon
  | 41 => .sym41Colon
  | 42 => .sym42Bang
  | 43 => .sym43Plus
  | 44 => .sym44At
  | 45 => .sym45Star
  | 46 => .sym46Comma
  | _ => .sym47Question

/-- The instruction of the next codeword of a stream, from its next seven bits: every bit string starts exactly one codeword
(30_encoding.md R57), so nothing is refused. -/
def decodeCodeword (window : BitVec 7) : Instr := symInstr (symbolOf (classify window))

/-! ### Encodings -/

/-- An encoding in one of the spec's three code spaces. -/
inductive Encoding where
  /-- A command code with its operands (R61). -/
  | command (r : Request)
  /-- A 32-bit cell (R50). -/
  | cell (c : Cell)
  /-- A codeword of `length` bits read as an unsigned number (R56). -/
  | codeword (length value : Nat)
deriving DecidableEq, Repr

/-- Why an encoding is refused. The spec's code spaces are complete (R57, R61, R62): only a bit string that is not exactly
one codeword is refused. -/
inductive DecodeRefusal where
  /-- The prefix gives another length than the string has, or the value does not fit the length (R58). -/
  | notOneCodeword
deriving DecidableEq, Repr

/-- A codeword of known length at the front of a seven-bit window, zeros behind it (R60). -/
def codewordWindow (length value : Nat) : BitVec 7 := BitVec.ofNat 7 (value * 2 ^ (7 - length))

/-- Decode an encoding: total, refusing by name. -/
def decode : Encoding → Except DecodeRefusal Instr
  | .command r => .ok (decodeCommand r)
  | .cell c => .ok (decodeCell c)
  | .codeword length value =>
    if (classify (codewordWindow length value)).length = length ∧ value < 2 ^ length then
      .ok (decodeCodeword (codewordWindow length value))
    else .error .notOneCodeword

/-- A request with every operand at zero; a command's encoding fills in its own operands (log 10). -/
def Request.blank (cmd : BitVec 2) : Request :=
  { cmd := cmd, word := [], cell := 0#32, view := { base := 0, len := 0 }, block := 0 }

/-- The encoding of an instruction: its command code and operands (R61), its cell (R50, R53) or its codeword (R80). -/
def encode : Instr → Encoding
  | .pack w => .command { Request.blank 0b00#2 with word := w }
  | .unpack c => .command { Request.blank 0b01#2 with cell := c }
  | .runBlock view n => .command { Request.blank 0b10#2 with view := view, block := n }
  | .reservedCmd => .command (Request.blank 0b11#2)
  | .sentinel => .cell 0x00000000#32
  | .cellTag0Skip payload => .cell (textCell payload 0b0000#4)
  | .cellTag1TextA payload => .cell (textCell payload 0b0001#4)
  | .cellTag2NumA value bit4 => .cell (numCell value bit4 0b0010#4)
  | .cellTag3DefB payload => .cell (textCell payload 0b0011#4)
  | .cellTag4TextC payload => .cell (textCell payload 0b0100#4)
  | .cellTag5NumC5 value bit4 => .cell (numCell value bit4 0b0101#4)
  | .cellTag6NumC6 value bit4 => .cell (numCell value bit4 0b0110#4)
  | .cellTag7TextD payload => .cell (textCell payload 0b0111#4)
  | .cellTag8NumA8 value bit4 => .cell (numCell value bit4 0b1000#4)
  | .cellTag9TextE9 payload => .cell (textCell payload 0b1001#4)
  | .cellTag10TextE10 payload => .cell (textCell payload 0b1010#4)
  | .cellTag11TextE11 payload => .cell (textCell payload 0b1011#4)
  | .cellTag12TextF payload => .cell (textCell payload 0b1100#4)
  | .cellTag13TextDefault13 payload => .cell (textCell payload 0b1101#4)
  | .cellTag14TextDefault14 payload => .cell (textCell payload 0b1110#4)
  | .cellTag15NumE value bit4 => .cell (numCell value bit4 0b1111#4)
  | .sym0Space => .codeword 4 0b0000
  | .sym1R => .codeword 4 0b0001
  | .sym2T => .codeword 4 0b0010
  | .sym3O => .codeword 4 0b0011
  | .sym4E => .codeword 4 0b0100
  | .sym5A => .codeword 4 0b0101
  | .sym6N => .codeword 4 0b0110
  | .sym7I => .codeword 4 0b0111
  | .sym8S => .codeword 5 0b10000
  | .sym9M => .codeword 5 0b10001
  | .sym10C => .codeword 5 0b10010
  | .sym11Y => .codeword 5 0b10011
  | .sym12L => .codeword 5 0b10100
  | .sym13G => .codeword 5 0b10101
  | .sym14F => .codeword 5 0b10110
  | .sym15W => .codeword 5 0b10111
  | .sym16D => .codeword 7 0b1100000
  | .sym17V => .codeword 7 0b1100001
  | .sym18P => .codeword 7 0b1100010
  | .sym19B => .codeword 7 0b1100011
  | .sym20H => .codeword 7 0b1100100
  | .sym21X => .codeword 7 0b1100101
  | .sym22U => .codeword 7 0b1100110
  | .sym23Q => .codeword 7 0b1100111
  | .sym24Digit0 => .codeword 7 0b1101000
  | .sym25Digit1 => .codeword 7 0b1101001
  | .sym26Digit2 => .codeword 7 0b1101010
  | .sym27Digit3 => .codeword 7 0b1101011
  | .sym28Digit4 => .codeword 7 0b1101100
  | .sym29Digit5 => .codeword 7 0b1101101
  | .sym30Digit6 => .codeword 7 0b1101110
  | .sym31Digit7 => .codeword 7 0b1101111
  | .sym32Digit8 => .codeword 7 0b1110000
  | .sym33Digit9 => .codeword 7 0b1110001
  | .sym34J => .codeword 7 0b1110010
  | .sym35Minus => .codeword 7 0b1110011
  | .sym36K => .codeword 7 0b1110100
  | .sym37Dot => .codeword 7 0b1110101
  | .sym38Z => .codeword 7 0b1110110
  | .sym39Slash => .codeword 7 0b1110111
  | .sym40Semicolon => .codeword 7 0b1111000
  | .sym41Colon => .codeword 7 0b1111001
  | .sym42Bang => .codeword 7 0b1111010
  | .sym43Plus => .codeword 7 0b1111011
  | .sym44At => .codeword 7 0b1111100
  | .sym45Star => .codeword 7 0b1111101
  | .sym46Comma => .codeword 7 0b1111110
  | .sym47Question => .codeword 7 0b1111111

/-! ### The opcode table's numbering -/

/-- The length of a codeword that stands in one byte, its last bit in bit 0: the table's masks 0xF, 0x1F and 0x7F. -/
def tableCodewordLength (w : Nat) : Nat :=
  if w < 16 then 4 else if w < 32 then 5 else 7

/-- Which encoding a table row of `nbits` bits and bits `w` stands for: a whole cell for 32 bits. In one byte the table's
command codes 0..3 and its codewords `0000` to `0011` have the same bits; the byte is then read as the command (log 11).
The rows' own widths 2, 4, 5 and 7 are told apart. -/
def tableEncoding (nbits w : Nat) : Option Encoding :=
  if 2 ^ nbits ≤ w then none
  else match nbits with
    | 32 => some (.cell (BitVec.ofNat 32 w))
    | 8 => some (if w < 4 then .command (Request.blank (BitVec.ofNat 2 w)) else .codeword (tableCodewordLength w) w)
    | 2 => some (.command (Request.blank (BitVec.ofNat 2 w)))
    | 4 => some (.codeword 4 w)
    | 5 => some (.codeword 5 w)
    | 7 => some (.codeword 7 w)
    | _ => none

/-- The instruction the decoder reads from a table row's bits (operands beside them at zero). -/
def decodeTableWord (nbits w : Nat) : Option Instr :=
  match tableEncoding nbits w with
  | some e => (decode e).toOption
  | none => none

end Sys2Proof
end

