-- ==== Sys2Proof/Config.lean ====
section
/-! DEFINITION. What the machine fixes (00_scope.md R4) and the values the spec leaves open (10_state.md R17). -/

namespace Sys2Proof.Config

/-- FIELD_BITS: capacity of a text cell's bitstream, bits 31..4 (R4). -/
def fieldBits : Nat := 28

/-- BLOCK_CELLS: the cells of one block (R4). -/
def blockCells : Nat := 256

/-- MAX_SYMBOLS: the longest UNPACK output (R4). -/
def maxSymbols : Nat := 7

/-- FREE VALUE (log 3): what ACC holds between commands; 10_state.md R17 calls it unspecified. -/
opaque freeAcc : Nat → BitVec 28

/-- FREE VALUE (log 3): what NB (0..28) holds between commands; 10_state.md R17 calls it unspecified. -/
opaque freeNb : Nat → Fin 29

/-- FREE VALUE (log 3): what POS (0..34) holds between commands; 10_state.md R17 calls it unspecified. -/
opaque freePos : Nat → Fin 35

/-- FREE VALUE (log 3): what the output sequence of an UNPACK holds between commands; unspecified by R17. -/
opaque freeUnpackOut : Nat → List Position

end Sys2Proof.Config
end

