-- ==== Sys2Proof/Machine/State.lean ====
section
/-! DEFINITION. The state of the RPD with its Cell Store and its host's coming moves, as plain data; the reasons a step
can stop; the state after reset. -/

namespace Sys2Proof.Machine

/-- The six display classes a tag can select (10_state.md R15; 30_encoding.md R52). -/
inductive ColourClass where
  | a | b | c | d | e | f
deriving DecidableEq, Repr

/-- One item of the output stream OUT (10_state.md R15). -/
inductive Event where
  /-- COLOR(k): set the display's colour attribute to class k. -/
  | color (k : ColourClass)
  /-- BREAK: a line break. -/
  | lineBreak
  /-- TEXT(s): a text token of 0..7 Letter Table positions. -/
  | text (s : List Position)
  /-- NUM(v): a numeric token, a 27-bit unsigned value. -/
  | num (v : BitVec 27)
  /-- SEP: the single separating space after a token. -/
  | sep
deriving DecidableEq, Repr

/-- PHASE of the RUN_BLOCK sequencer (10_state.md R13). -/
inductive Phase where
  | idle | running
deriving DecidableEq, Repr

/-- The Cell Store: (cell index, cell) pairs, indices strictly rising (20_memory.md R30; log 6). A cell is the smallest unit
the RPD addresses (R34, R36). An index that is not listed is no element of the store and reads as nothing (log 7). -/
abbrev Memory := List (Nat × Cell)

/-- What the host can do to the RPD, each between commands only (70_reset_and_hazards.md R191, R194; log 1). -/
inductive HostMove where
  /-- Issue a command with its operands (30_encoding.md R61). -/
  | issue (r : Request)
  /-- Write cell `c` at index `a` of the Cell Store: loading an image, or changing it between two commands (20_memory.md
  R30, R42). The RPD itself never writes the store (R3). -/
  | load (a : Nat) (c : Cell)
  /-- Power the RPD on again (R190, R191). -/
  | powerOn
deriving DecidableEq, Repr

/-- The machine's state. The Letter Table is a constant (`letterTable`), no field. -/
structure State where
  /-- DEFCNT, the definition counter (10_state.md R12). -/
  defcnt : BitVec 9
  /-- PHASE (R13). -/
  phase : Phase
  /-- BLK, the block index of the current or last accepted run (R13). -/
  blk : Nat
  /-- IDX, the offset of the next cell in the block window (R13). -/
  idx : BitVec 9
  /-- STATUS: CODE 2:0, END 4:3, SYMIDX 7:5 (R14). -/
  status : BitVec 8
  /-- RES_CELL, the cell of the last successful PACK (R16). -/
  resCell : Cell
  /-- RES_SYMS, the positions of the last UNPACK (R16); the 3-bit length is the list's length. -/
  resSyms : List Position
  /-- OUT, the output event stream, first event first (R15). -/
  out : List Event
  /-- ACC, PACK's bit accumulator; transient (R17). -/
  acc : BitVec 28
  /-- NB, the number of bits in ACC; transient (R17). -/
  nb : Nat
  /-- POS, the stream index of UNPACK's next unconsumed bit; transient (R17). -/
  pos : Nat
  /-- The output sequence UNPACK has built so far; transient (R17). -/
  unpackOut : List Position
  /-- The model's own: an UNPACK is in progress; no step of the host's commands leaves it so (log 2, log 5). -/
  unpacking : Bool
  /-- The operand of the UNPACK in progress (41_word_codec.md R110; log 5). -/
  unpackCell : Cell
  /-- The view of the RUN_BLOCK in progress (20_memory.md R31; log 5). -/
  view : View
  /-- The Cell Store (20_memory.md R30). -/
  store : Memory
  /-- The model's own: the host's coming moves, the next one first (log 1). -/
  host : List HostMove
  /-- The model's own: how many times the transient registers took free values (log 3). -/
  freeCtr : Nat
deriving DecidableEq, Repr

/-- Why a step can stop with a fault. No instruction's meaning raises one: both are raised by the read of the next cell. -/
inductive Fault where
  /-- Raised by MemRead at a view index at or past VIEW_LEN, which 20_memory.md R33 does not define. Safe: the model stops;
  no state that a run reaches raises it (log 8). -/
  | outsideView (a : Nat)
  /-- Raised by MemRead when the store has no element at this index: the host built a view that is not within the store,
  against its duty of R31. Safe: the model stops (log 7). -/
  | outsideStore (index : Nat)
deriving DecidableEq, Repr

/-- Why a step can refuse. -/
inductive Refusal where
  /-- The instruction has no meaning in the model. No arm of `exec` answers it. Safe: the model stops. -/
  | notModelled (mnemonic : String)
deriving DecidableEq, Repr

/-- The machine right after power-on reset (70_reset_and_hazards.md R190). The values of ACC, NB, POS, the output under
construction (log 4) and the model's own fields (log 5) are DESIGN CHOICES; nothing is loaded in the store (log 7). -/
def State.reset : State where
  defcnt := 0#9
  phase := .idle
  blk := 0
  idx := 0#9
  status := 0x00#8
  resCell := 0#32
  resSyms := []
  out := []
  acc := 0#28
  nb := 0
  pos := 0
  unpackOut := []
  unpacking := false
  unpackCell := 0#32
  view := { base := 0, len := 0 }
  store := []
  host := []
  freeCtr := 0

end Sys2Proof.Machine
end

