-- ==== Sys2Proof/Machine/Flags.lean ====
section
/-! DEFINITION. The STATUS register's fields, the error kinds, and the tests that steer the RPD (it has no flags register,
10_state.md R19). -/

namespace Sys2Proof.Machine

/-- The error kinds (60_exceptions.md R172 to R177). -/
inductive ErrorKind where
  | unknownSymbol | wordTooLong | emptyWord | outOfRangeBlock | illegalCommand
deriving DecidableEq, Repr

/-- STATUS.CODE of an error kind (10_state.md R14). -/
def ErrorKind.code : ErrorKind → BitVec 3
  | .unknownSymbol => 1#3
  | .wordTooLong => 2#3
  | .emptyWord => 3#3
  | .outOfRangeBlock => 4#3
  | .illegalCommand => 5#3

/-- How a RUN_BLOCK ends (42_block_interpreter.md R134). -/
inductive EndKind where
  | sentinel | windowEnd
deriving DecidableEq, Repr

/-- STATUS.END of a run's end (10_state.md R14). -/
def EndKind.code : EndKind → BitVec 2
  | .sentinel => 1#2
  | .windowEnd => 2#2

/-- STATUS from its fields: SYMIDX in 7:5, END in 4:3, CODE in 2:0 (R14). -/
def mkStatus (code : BitVec 3) (endCode : BitVec 2) (symidx : BitVec 3) : BitVec 8 := symidx ++ endCode ++ code

/-- STATUS.CODE, bits 2:0 (R14). -/
def statusCode (st : BitVec 8) : BitVec 3 := st.extractLsb' 0 3

/-- STATUS.END, bits 4:3 (R14). -/
def statusEnd (st : BitVec 8) : BitVec 2 := st.extractLsb' 3 2

/-- STATUS.SYMIDX, bits 7:5 (R14). -/
def statusSymidx (st : BitVec 8) : BitVec 3 := st.extractLsb' 5 3

/-- STATUS of a codec command that completed: CODE = 0, END = 0, SYMIDX = 0 (41_word_codec.md R100, R110). -/
def okStatus : BitVec 8 := mkStatus 0#3 0#2 0#3

/-- STATUS of an error: its code, END = 0, and the recorded position (60_exceptions.md R171). The position never needs more
than three bits (R14; log 12). -/
def errorStatus (e : ErrorKind) (info : Nat) : BitVec 8 := mkStatus e.code 0#2 (BitVec.ofNat 3 info)

/-- STATUS of a completed run (42_block_interpreter.md R133, END_RUN). -/
def runStatus (r : EndKind) : BitVec 8 := mkStatus 0#3 r.code 0#3

/-- The test DEFCNT ≠ 0, the only use of DEFCNT's value (10_state.md R12, R19). -/
def State.hasDefinition (s : State) : Bool := s.defcnt != 0#9

end Sys2Proof.Machine
end

