-- ==== Sys2Proof/Machine/Operands.lean ====
section
/-! DEFINITION. Operand forms: the text bitstream of a cell and UNPACK's loop over it, and PACK's accumulation. -/

namespace Sys2Proof.Machine

/-! ### The text bitstream -/

/-- Stream bit k of a cell: `cell[31-k]` for k ≤ 27, and 0 past the field (30_encoding.md R54, R60). -/
def streamBit (c : Cell) (k : Nat) : Bool := if k ≤ 27 then c.getLsbD (31 - k) else false

/-- The cell with its tag masked off: UNPACK's register W before its first pass (41_word_codec.md R110). -/
def streamWord (c : Cell) : BitVec 32 := c &&& 0xFFFFFFF0#32

/-- The part of the stream from index `pos` on, left-aligned, zeros behind it: UNPACK's register W at POS = pos (R110). -/
def streamFrom (c : Cell) (pos : Nat) : BitVec 32 := streamWord c <<< pos

/-- The next seven bits of a left-aligned stream, enough for any codeword (R111). -/
def nextBits (w : BitVec 32) : BitVec 7 := w.extractLsb' 25 7

/-- UNPACK's loop on the shift register W, at most `fuel` passes: it stops when no bit of W is 1, and else takes the next
codeword, appends its symbol and shifts W by the codeword's length (41_word_codec.md R110, register form). -/
def unpackFrom : Nat → BitVec 32 → List Position
  | 0, _ => []
  | fuel + 1, w =>
    if w = 0#32 then []
    else symbolOf (classify (nextBits w)) :: unpackFrom fuel (w <<< (classify (nextBits w)).length)

/-- `unpack(c)` as a pure function of the whole cell, its tag ignored (R110, R114); seven passes are enough (R113). -/
def unpack (c : Cell) : List Position := unpackFrom Config.maxSymbols (streamWord c)

/-! ### PACK's accumulation -/

/-- PACK's working registers ACC and NB (10_state.md R17). -/
structure PackRegs where
  acc : BitVec 28
  nb : Nat
deriving DecidableEq, Repr

/-- Both cleared, as PACK starts (41_word_codec.md R100). -/
def PackRegs.zero : PackRegs := { acc := 0#28, nb := 0 }

/-- Append one codeword: `ACC <- (ACC << len) | v ; NB <- NB + len` (R100). -/
def PackRegs.append (r : PackRegs) (cw : Codeword) : PackRegs :=
  { acc := (r.acc <<< cw.length) ||| BitVec.ofNat 28 cw.value, nb := r.nb + cw.length }

/-- PACK's loop over its input from position j: at each position first the lookup, then the 28-bit bound, then the append;
it ends at the first symbol that fails, with the error and that position (R100, R101, R104). The character type α and its
LOOKUP are arguments (CHAR is OPEN, 00_scope.md R4). -/
def packLoop {α : Type} (look : α → Option Position) : List α → Nat → PackRegs → Except (ErrorKind × Nat) PackRegs
  | [], _, r => .ok r
  | ch :: rest, j, r =>
    match look ch with
    | none => .error (.unknownSymbol, j)
    | some p =>
      if r.nb + (codewordOf p).length > Config.fieldBits then .error (.wordTooLong, j)
      else packLoop look rest (j + 1) (r.append (codewordOf p))

/-- The cell of NB accumulated bits: left-aligned at bit 31, zeros below, tag 0 (R102). -/
def packedCell (acc : BitVec 28) (nb : Nat) : Cell := (acc.setWidth 32 <<< (28 - nb)) <<< 4

end Sys2Proof.Machine
end

