-- ==== Sys2Proof/Machine/Ops.lean ====
section
/-! DEFINITION. The named operations on the Cell Store and on the registers that the meanings share. -/

namespace Sys2Proof.Machine

/-! ### The Cell Store -/

/-- The store element at an index, if the store has one (20_memory.md R30; log 7). -/
def Memory.read : Memory → Nat → Option Cell
  | [], _ => none
  | (b, c) :: rest, a => if a = b then some c else Memory.read rest a

/-- Put a cell at an index, keeping the indices strictly rising. The host's operation; the RPD has no MemWrite (R3). -/
def Memory.write : Memory → Nat → Cell → Memory
  | [], a, c => [(a, c)]
  | (b, d) :: rest, a, c =>
    if a < b then (a, c) :: (b, d) :: rest
    else if a = b then (a, c) :: rest
    else (b, d) :: Memory.write rest a c

/-- Every listed index is past `low`, and the indices strictly rise. -/
def Memory.risesPast : Nat → Memory → Bool
  | _, [] => true
  | low, (b, _) :: rest => decide (low < b) && Memory.risesPast b rest

/-- The canonical form: indices strictly rising. No entry can equal what an unlisted index reads as: that is nothing. -/
def Memory.wf : Memory → Bool
  | [] => true
  | (b, _) :: rest => Memory.risesPast b rest

/-- `MemRead(a, 1)`: the 32-bit cell at view index a, defined for a < VIEW_LEN; view index a is store element base + a
(20_memory.md R31, R33). -/
def memRead (s : State) (a : Nat) : Except Fault Cell :=
  if s.view.len ≤ a then .error (.outsideView a)
  else match s.store.read (s.view.base + a) with
    | some c => .ok c
    | none => .error (.outsideStore (s.view.base + a))

/-- The host writes one cell of the store between commands (R30, R42). -/
def hostLoad (a : Nat) (c : Cell) (s : State) : State := { s with store := s.store.write a c }

/-! ### Errors and the end of a codec command -/

/-- `raise E(info)`: the command ends, STATUS takes the error's code with END = 0 and the recorded position, and nothing
else is written. There is no handler, saved state or return (60_exceptions.md R171, R179). -/
def raise (e : ErrorKind) (info : Nat) (s : State) : State := { s with status := errorStatus e info }

/-- The end of a codec command for the transient registers: their values between commands are unspecified (10_state.md
R17), so each takes a free value (log 3). -/
def releaseCodec (s : State) : State :=
  { s with
    acc := Config.freeAcc s.freeCtr
    nb := (Config.freeNb s.freeCtr).val
    pos := (Config.freePos s.freeCtr).val
    unpackOut := Config.freeUnpackOut s.freeCtr
    freeCtr := s.freeCtr + 1 }

/-! ### PACK -/

/-- The end of a PACK whose loop accepted every symbol and left r in ACC and NB: EmptyWord if ACC is zero, else RES_CELL and
an OK STATUS (41_word_codec.md R100, R102, R103). -/
def finishPack (r : PackRegs) (s : State) : State :=
  if r.acc = 0#28 then raise .emptyWord 0 s
  else { s with resCell := packedCell r.acc r.nb, status := okStatus }

/-- PACK's loop result on the state: an error of the loop is raised at its position, and otherwise ACC and NB hold the loop's
registers when the command finishes (R100, R104). -/
def packResult (result : Except (ErrorKind × Nat) PackRegs) (s : State) : State :=
  match result with
  | .error (e, j) => raise e j s
  | .ok r => finishPack r { s with acc := r.acc, nb := r.nb }

/-! ### UNPACK -/

/-- One part of a command after another; a part that stops ends the whole. -/
def andThen (part : Host.Outcome State Fault Refusal) (rest : State → Host.Outcome State Fault Refusal) :
    Host.Outcome State Fault Refusal :=
  match part with
  | .next s => rest s
  | .fault f => .fault f
  | .refused r => .refused r

/-- UNPACK starts: POS <- 0, no output yet, the operand held while the command runs (41_word_codec.md R110; log 2). -/
def beginUnpack (c : Cell) (s : State) : State :=
  { s with unpacking := true, unpackCell := c, pos := 0, unpackOut := [] }

/-- One pass of UNPACK's loop on a classified codeword: append SYMBOL_OF(g, s), advance POS by the length (R110, R111). -/
def takeCodeword (cw : Codeword) (s : State) : State :=
  { s with unpackOut := s.unpackOut ++ [symbolOf cw], pos := s.pos + cw.length }

/-- UNPACK ends: RES_SYMS takes the output, STATUS is OK, the transient registers are free again (R110; R17). -/
def endUnpack (s : State) : State :=
  releaseCodec { s with unpacking := false, resSyms := s.unpackOut, status := okStatus }

/-! ### RUN_BLOCK -/

/-- The range check fails: the window of block n does not lie wholly inside the view; computed without wrap-around
(42_block_interpreter.md R130; 92_eei_decisions.md D20). -/
def windowOutside (view : View) (n : Nat) : Bool := decide (view.len < Config.blockCells * n + Config.blockCells)

/-- ENTER(n): DEFCNT <- 0, BLK <- n, IDX <- 0, OUT <- [], PHASE <- RUNNING, on the view of the command (R131). -/
def enter (view : View) (n : Nat) (s : State) : State :=
  { s with defcnt := 0#9, blk := n, idx := 0#9, out := [], phase := .running, view := view }

/-- END_RUN(r): PHASE <- IDLE and STATUS <- OK with END = r (R133). -/
def endRun (r : EndKind) (s : State) : State := { s with phase := .idle, status := runStatus r }

/-- Append events to OUT in order (10_state.md R15). -/
def emit (evs : List Event) (s : State) : State := { s with out := s.out ++ evs }

/-- `IDX <- IDX + 1` (42_block_interpreter.md R133). -/
def advanceIdx (s : State) : State := { s with idx := s.idx + 1#9 }

/-- The COLOR event of an arm's class; none for "unchanged" (R135, D8). -/
def colourEvents : Option ColourClass → List Event
  | some k => [.color k]
  | none => []

/-- A text arm: COLOR if the arm has a class, TEXT(unpack(c)) of the whole tagged cell, SEP (R136, R138). -/
def textArm (k : Option ColourClass) (c : Cell) (s : State) : State :=
  emit (colourEvents k ++ [.text (unpack c), .sep]) s

/-- A numeric arm: COLOR, NUM(c[31:5]), SEP (R137, R138). -/
def numArm (k : ColourClass) (c : Cell) (s : State) : State :=
  emit [.color k, .num (cellValue c), .sep] s

/-- The BREAK before a tag-3 token: only when a definition was seen before in this run (R143). -/
def breakEvents (s : State) : List Event := if s.hasDefinition then [.lineBreak] else []

/-- The tag-3 arm: COLOR(B), BREAK if DEFCNT ≠ 0, DEFCNT <- DEFCNT + 1, TEXT, SEP (R143). -/
def definitionArm (c : Cell) (s : State) : State :=
  { emit ([.color .b] ++ breakEvents s ++ [.text (unpack c), .sep]) s with defcnt := s.defcnt + 1#9 }

/-! ### Power-on -/

/-- Power-on reset between commands: every register at its value of 70_reset_and_hazards.md R190, the transient ones
unspecified; the Cell Store and the host are outside the RPD and stay (R190, R191; log 13). -/
def powerOn (s : State) : State :=
  releaseCodec { State.reset with store := s.store, host := s.host, freeCtr := s.freeCtr }

end Sys2Proof.Machine
end

