-- ==== Sys2Proof/Machine/Cells.lean ====
section
/-! DEFINITION. The meanings of the cells a RUN_BLOCK reads (42_block_interpreter.md R132, R140 to R155). Each is what one
STEP() does with that cell: the arm, and IDX + 1 (R133). Each answers a next state on every path. -/

namespace Sys2Proof.Machine

/-- The sentinel: the run ends with END = SENTINEL; the cell is not dispatched and IDX keeps its offset (R132). -/
def execSentinel (s : State) : Host.Outcome State Fault Refusal := .next (endRun .sentinel s)

/-- Tag 0 with a nonzero payload: no event, the run goes on with the next cell (R140). -/
def execCellTag0Skip (_payload : BitVec 28) (s : State) : Host.Outcome State Fault Refusal := .next (advanceIdx s)

/-- Tag 1: COLOR(A), TEXT, SEP (R141). -/
def execCellTag1TextA (payload : BitVec 28) (s : State) : Host.Outcome State Fault Refusal :=
  .next (advanceIdx (textArm (some .a) (textCell payload 0b0001#4) s))

/-- Tag 2: COLOR(A), NUM, SEP (R142). -/
def execCellTag2NumA (value : BitVec 27) (bit4 : BitVec 1) (s : State) : Host.Outcome State Fault Refusal :=
  .next (advanceIdx (numArm .a (numCell value bit4 0b0010#4) s))

/-- Tag 3: the definition arm, with its line break and counter (R143). -/
def execCellTag3DefB (payload : BitVec 28) (s : State) : Host.Outcome State Fault Refusal :=
  .next (advanceIdx (definitionArm (textCell payload 0b0011#4) s))

/-- Tag 4: COLOR(C), TEXT, SEP (R144). -/
def execCellTag4TextC (payload : BitVec 28) (s : State) : Host.Outcome State Fault Refusal :=
  .next (advanceIdx (textArm (some .c) (textCell payload 0b0100#4) s))

/-- Tag 5: COLOR(C), NUM, SEP (R145). -/
def execCellTag5NumC5 (value : BitVec 27) (bit4 : BitVec 1) (s : State) : Host.Outcome State Fault Refusal :=
  .next (advanceIdx (numArm .c (numCell value bit4 0b0101#4) s))

/-- Tag 6: COLOR(C), NUM, SEP (R146). -/
def execCellTag6NumC6 (value : BitVec 27) (bit4 : BitVec 1) (s : State) : Host.Outcome State Fault Refusal :=
  .next (advanceIdx (numArm .c (numCell value bit4 0b0110#4) s))

/-- Tag 7: COLOR(D), TEXT, SEP (R147). -/
def execCellTag7TextD (payload : BitVec 28) (s : State) : Host.Outcome State Fault Refusal :=
  .next (advanceIdx (textArm (some .d) (textCell payload 0b0111#4) s))

/-- Tag 8: COLOR(A), NUM, SEP (R148). -/
def execCellTag8NumA8 (value : BitVec 27) (bit4 : BitVec 1) (s : State) : Host.Outcome State Fault Refusal :=
  .next (advanceIdx (numArm .a (numCell value bit4 0b1000#4) s))

/-- Tag 9: COLOR(E), TEXT, SEP (R149). -/
def execCellTag9TextE9 (payload : BitVec 28) (s : State) : Host.Outcome State Fault Refusal :=
  .next (advanceIdx (textArm (some .e) (textCell payload 0b1001#4) s))

/-- Tag 10: COLOR(E), TEXT, SEP (R150). -/
def execCellTag10TextE10 (payload : BitVec 28) (s : State) : Host.Outcome State Fault Refusal :=
  .next (advanceIdx (textArm (some .e) (textCell payload 0b1010#4) s))

/-- Tag 11: COLOR(E), TEXT, SEP (R151). -/
def execCellTag11TextE11 (payload : BitVec 28) (s : State) : Host.Outcome State Fault Refusal :=
  .next (advanceIdx (textArm (some .e) (textCell payload 0b1011#4) s))

/-- Tag 12: COLOR(F), TEXT, SEP (R152). -/
def execCellTag12TextF (payload : BitVec 28) (s : State) : Host.Outcome State Fault Refusal :=
  .next (advanceIdx (textArm (some .f) (textCell payload 0b1100#4) s))

/-- Tag 13: the default arm, TEXT, SEP, colour unchanged (R153). -/
def execCellTag13TextDefault13 (payload : BitVec 28) (s : State) : Host.Outcome State Fault Refusal :=
  .next (advanceIdx (textArm none (textCell payload 0b1101#4) s))

/-- Tag 14: the default arm, TEXT, SEP, colour unchanged (R154). -/
def execCellTag14TextDefault14 (payload : BitVec 28) (s : State) : Host.Outcome State Fault Refusal :=
  .next (advanceIdx (textArm none (textCell payload 0b1110#4) s))

/-- Tag 15: COLOR(E), NUM, SEP (R155). -/
def execCellTag15NumE (value : BitVec 27) (bit4 : BitVec 1) (s : State) : Host.Outcome State Fault Refusal :=
  .next (advanceIdx (numArm .e (numCell value bit4 0b1111#4) s))

end Sys2Proof.Machine
end

