-- ==== Sys2Proof/Machine/Codewords.lean ====
section
/-! DEFINITION. The meanings of the 48 codewords UNPACK reads: each appends SYMBOL_OF of its group and suffix to the output
and advances POS by its length (40_letter_table.md R80, R82; 41_word_codec.md R110, R111).
After them, UNPACK's loop, which runs them. -/

namespace Sys2Proof.Machine

/-- `0000`: group 0, suffix 0, position 0. -/
def execSym0Space (s : State) : Host.Outcome State Fault Refusal := .next (takeCodeword (.cw4 0#3) s)

/-- `0001`: group 0, suffix 1, position 1. -/
def execSym1R (s : State) : Host.Outcome State Fault Refusal := .next (takeCodeword (.cw4 1#3) s)

/-- `0010`: group 0, suffix 2, position 2. -/
def execSym2T (s : State) : Host.Outcome State Fault Refusal := .next (takeCodeword (.cw4 2#3) s)

/-- `0011`: group 0, suffix 3, position 3. -/
def execSym3O (s : State) : Host.Outcome State Fault Refusal := .next (takeCodeword (.cw4 3#3) s)

/-- `0100`: group 0, suffix 4, position 4. -/
def execSym4E (s : State) : Host.Outcome State Fault Refusal := .next (takeCodeword (.cw4 4#3) s)

/-- `0101`: group 0, suffix 5, position 5. -/
def execSym5A (s : State) : Host.Outcome State Fault Refusal := .next (takeCodeword (.cw4 5#3) s)

/-- `0110`: group 0, suffix 6, position 6. -/
def execSym6N (s : State) : Host.Outcome State Fault Refusal := .next (takeCodeword (.cw4 6#3) s)

/-- `0111`: group 0, suffix 7, position 7. -/
def execSym7I (s : State) : Host.Outcome State Fault Refusal := .next (takeCodeword (.cw4 7#3) s)

/-- `10000`: group 1, suffix 0, position 8. -/
def execSym8S (s : State) : Host.Outcome State Fault Refusal := .next (takeCodeword (.cw5 0#3) s)

/-- `10001`: group 1, suffix 1, position 9. -/
def execSym9M (s : State) : Host.Outcome State Fault Refusal := .next (takeCodeword (.cw5 1#3) s)

/-- `10010`: group 1, suffix 2, position 10. -/
def execSym10C (s : State) : Host.Outcome State Fault Refusal := .next (takeCodeword (.cw5 2#3) s)

/-- `10011`: group 1, suffix 3, position 11. -/
def execSym11Y (s : State) : Host.Outcome State Fault Refusal := .next (takeCodeword (.cw5 3#3) s)

/-- `10100`: group 1, suffix 4, position 12. -/
def execSym12L (s : State) : Host.Outcome State Fault Refusal := .next (takeCodeword (.cw5 4#3) s)

/-- `10101`: group 1, suffix 5, position 13. -/
def execSym13G (s : State) : Host.Outcome State Fault Refusal := .next (takeCodeword (.cw5 5#3) s)

/-- `10110`: group 1, suffix 6, position 14. -/
def execSym14F (s : State) : Host.Outcome State Fault Refusal := .next (takeCodeword (.cw5 6#3) s)

/-- `10111`: group 1, suffix 7, position 15. -/
def execSym15W (s : State) : Host.Outcome State Fault Refusal := .next (takeCodeword (.cw5 7#3) s)

/-- `1100000`: group 2, suffix 0, position 16. -/
def execSym16D (s : State) : Host.Outcome State Fault Refusal := .next (takeCodeword (.cw7 0#5) s)

/-- `1100001`: group 2, suffix 1, position 17. -/
def execSym17V (s : State) : Host.Outcome State Fault Refusal := .next (takeCodeword (.cw7 1#5) s)

/-- `1100010`: group 2, suffix 2, position 18. -/
def execSym18P (s : State) : Host.Outcome State Fault Refusal := .next (takeCodeword (.cw7 2#5) s)

/-- `1100011`: group 2, suffix 3, position 19. -/
def execSym19B (s : State) : Host.Outcome State Fault Refusal := .next (takeCodeword (.cw7 3#5) s)

/-- `1100100`: group 2, suffix 4, position 20. -/
def execSym20H (s : State) : Host.Outcome State Fault Refusal := .next (takeCodeword (.cw7 4#5) s)

/-- `1100101`: group 2, suffix 5, position 21. -/
def execSym21X (s : State) : Host.Outcome State Fault Refusal := .next (takeCodeword (.cw7 5#5) s)

/-- `1100110`: group 2, suffix 6, position 22. -/
def execSym22U (s : State) : Host.Outcome State Fault Refusal := .next (takeCodeword (.cw7 6#5) s)

/-- `1100111`: group 2, suffix 7, position 23. -/
def execSym23Q (s : State) : Host.Outcome State Fault Refusal := .next (takeCodeword (.cw7 7#5) s)

/-- `1101000`: group 2, suffix 8, position 24. -/
def execSym24Digit0 (s : State) : Host.Outcome State Fault Refusal := .next (takeCodeword (.cw7 8#5) s)

/-- `1101001`: group 2, suffix 9, position 25. -/
def execSym25Digit1 (s : State) : Host.Outcome State Fault Refusal := .next (takeCodeword (.cw7 9#5) s)

/-- `1101010`: group 2, suffix 10, position 26. -/
def execSym26Digit2 (s : State) : Host.Outcome State Fault Refusal := .next (takeCodeword (.cw7 10#5) s)

/-- `1101011`: group 2, suffix 11, position 27. -/
def execSym27Digit3 (s : State) : Host.Outcome State Fault Refusal := .next (takeCodeword (.cw7 11#5) s)

/-- `1101100`: group 2, suffix 12, position 28. -/
def execSym28Digit4 (s : State) : Host.Outcome State Fault Refusal := .next (takeCodeword (.cw7 12#5) s)

/-- `1101101`: group 2, suffix 13, position 29. -/
def execSym29Digit5 (s : State) : Host.Outcome State Fault Refusal := .next (takeCodeword (.cw7 13#5) s)

/-- `1101110`: group 2, suffix 14, position 30. -/
def execSym30Digit6 (s : State) : Host.Outcome State Fault Refusal := .next (takeCodeword (.cw7 14#5) s)

/-- `1101111`: group 2, suffix 15, position 31. -/
def execSym31Digit7 (s : State) : Host.Outcome State Fault Refusal := .next (takeCodeword (.cw7 15#5) s)

/-- `1110000`: group 2, suffix 16, position 32. -/
def execSym32Digit8 (s : State) : Host.Outcome State Fault Refusal := .next (takeCodeword (.cw7 16#5) s)

/-- `1110001`: group 2, suffix 17, position 33. -/
def execSym33Digit9 (s : State) : Host.Outcome State Fault Refusal := .next (takeCodeword (.cw7 17#5) s)

/-- `1110010`: group 2, suffix 18, position 34. -/
def execSym34J (s : State) : Host.Outcome State Fault Refusal := .next (takeCodeword (.cw7 18#5) s)

/-- `1110011`: group 2, suffix 19, position 35. -/
def execSym35Minus (s : State) : Host.Outcome State Fault Refusal := .next (takeCodeword (.cw7 19#5) s)

/-- `1110100`: group 2, suffix 20, position 36. -/
def execSym36K (s : State) : Host.Outcome State Fault Refusal := .next (takeCodeword (.cw7 20#5) s)

/-- `1110101`: group 2, suffix 21, position 37. -/
def execSym37Dot (s : State) : Host.Outcome State Fault Refusal := .next (takeCodeword (.cw7 21#5) s)

/-- `1110110`: group 2, suffix 22, position 38. -/
def execSym38Z (s : State) : Host.Outcome State Fault Refusal := .next (takeCodeword (.cw7 22#5) s)

/-- `1110111`: group 2, suffix 23, position 39. -/
def execSym39Slash (s : State) : Host.Outcome State Fault Refusal := .next (takeCodeword (.cw7 23#5) s)

/-- `1111000`: group 2, suffix 24, position 40. -/
def execSym40Semicolon (s : State) : Host.Outcome State Fault Refusal := .next (takeCodeword (.cw7 24#5) s)

/-- `1111001`: group 2, suffix 25, position 41. -/
def execSym41Colon (s : State) : Host.Outcome State Fault Refusal := .next (takeCodeword (.cw7 25#5) s)

/-- `1111010`: group 2, suffix 26, position 42. -/
def execSym42Bang (s : State) : Host.Outcome State Fault Refusal := .next (takeCodeword (.cw7 26#5) s)

/-- `1111011`: group 2, suffix 27, position 43. -/
def execSym43Plus (s : State) : Host.Outcome State Fault Refusal := .next (takeCodeword (.cw7 27#5) s)

/-- `1111100`: group 2, suffix 28, position 44. -/
def execSym44At (s : State) : Host.Outcome State Fault Refusal := .next (takeCodeword (.cw7 28#5) s)

/-- `1111101`: group 2, suffix 29, position 45. -/
def execSym45Star (s : State) : Host.Outcome State Fault Refusal := .next (takeCodeword (.cw7 29#5) s)

/-- `1111110`: group 2, suffix 30, position 46. -/
def execSym46Comma (s : State) : Host.Outcome State Fault Refusal := .next (takeCodeword (.cw7 30#5) s)

/-- `1111111`: group 2, suffix 31, position 47. -/
def execSym47Question (s : State) : Host.Outcome State Fault Refusal := .next (takeCodeword (.cw7 31#5) s)

/-! ### UNPACK's loop -/

/-- The meaning of the codeword of each Letter Table position (40_letter_table.md R80). -/
def runCodeword (p : Position) (s : State) : Host.Outcome State Fault Refusal :=
  match p.val with
  | 0 => execSym0Space s
  | 1 => execSym1R s
  | 2 => execSym2T s
  | 3 => execSym3O s
  | 4 => execSym4E s
  | 5 => execSym5A s
  | 6 => execSym6N s
  | 7 => execSym7I s
  | 8 => execSym8S s
  | 9 => execSym9M s
  | 10 => execSym10C s
  | 11 => execSym11Y s
  | 12 => execSym12L s
  | 13 => execSym13G s
  | 14 => execSym14F s
  | 15 => execSym15W s
  | 16 => execSym16D s
  | 17 => execSym17V s
  | 18 => execSym18P s
  | 19 => execSym19B s
  | 20 => execSym20H s
  | 21 => execSym21X s
  | 22 => execSym22U s
  | 23 => execSym23Q s
  | 24 => execSym24Digit0 s
  | 25 => execSym25Digit1 s
  | 26 => execSym26Digit2 s
  | 27 => execSym27Digit3 s
  | 28 => execSym28Digit4 s
  | 29 => execSym29Digit5 s
  | 30 => execSym30Digit6 s
  | 31 => execSym31Digit7 s
  | 32 => execSym32Digit8 s
  | 33 => execSym33Digit9 s
  | 34 => execSym34J s
  | 35 => execSym35Minus s
  | 36 => execSym36K s
  | 37 => execSym37Dot s
  | 38 => execSym38Z s
  | 39 => execSym39Slash s
  | 40 => execSym40Semicolon s
  | 41 => execSym41Colon s
  | 42 => execSym42Bang s
  | 43 => execSym43Plus s
  | 44 => execSym44At s
  | 45 => execSym45Star s
  | 46 => execSym46Comma s
  | _ => execSym47Question s

/-- UNPACK's loop, at most `fuel` passes: it ends when no bit of the unconsumed stream is 1, and else the next codeword is
classified and its meaning runs (41_word_codec.md R110, R111); seven passes are enough (R113). -/
def unpackLoop : Nat → State → Host.Outcome State Fault Refusal
  | 0, s => .next s
  | fuel + 1, s =>
    if streamFrom s.unpackCell s.pos = 0#32 then .next s
    else andThen (runCodeword (symbolOf (classify (nextBits (streamFrom s.unpackCell s.pos)))) s) (unpackLoop fuel)

end Sys2Proof.Machine
end

