-- ==== Sys2Proof/Machine/Commands.lean ====
section
/-! DEFINITION. The meanings of the host's commands (30_encoding.md R61). Each answers a next state on every path. -/

namespace Sys2Proof.Machine

/-- PACK(w): the whole command in one step (41_word_codec.md R100 to R104; 60_exceptions.md R171 to R174). -/
def execPack (w : List CHAR) (s : State) : Host.Outcome State Fault Refusal :=
  .next (releaseCodec (packResult (packLoop lookup w 0 PackRegs.zero) s))

/-- UNPACK(c): the whole command in one step (70_reset_and_hazards.md R195): POS <- 0, the loop over the stream's codewords,
each taken by its own meaning, then RES_SYMS and STATUS (41_word_codec.md R110 to R114). -/
def execUnpack (c : Cell) (s : State) : Host.Outcome State Fault Refusal :=
  andThen (unpackLoop Config.maxSymbols (beginUnpack c s)) fun t => .next (endUnpack t)

/-- RUN_BLOCK(view, n): the range check, then ENTER(n); each further step is one STEP() (42_block_interpreter.md R130, R131;
60_exceptions.md R175). -/
def execRunBlock (view : View) (n : Nat) (s : State) : Host.Outcome State Fault Refusal :=
  .next (if windowOutside view n then raise .outOfRangeBlock 0 s else enter view n s)

/-- The reserved command code: IllegalCommand, STATUS only (60_exceptions.md R177). -/
def execReservedCmd (s : State) : Host.Outcome State Fault Refusal := .next (raise .illegalCommand 0 s)

end Sys2Proof.Machine
end

