-- ==== Sys2Proof/Machine/Dispatch.lean ====
section
/-! DEFINITION. One arm for each instruction, each a direct call of its meaning. -/

namespace Sys2Proof.Machine

def exec (i : Instr) (s : State) : Host.Outcome State Fault Refusal :=
  match i with
  | .pack w => Sys2Proof.Machine.execPack w s
  | .unpack c => Sys2Proof.Machine.execUnpack c s
  | .runBlock view n => Sys2Proof.Machine.execRunBlock view n s
  | .reservedCmd => Sys2Proof.Machine.execReservedCmd s
  | .sentinel => Sys2Proof.Machine.execSentinel s
  | .cellTag0Skip payload => Sys2Proof.Machine.execCellTag0Skip payload s
  | .cellTag1TextA payload => Sys2Proof.Machine.execCellTag1TextA payload s
  | .cellTag2NumA value bit4 => Sys2Proof.Machine.execCellTag2NumA value bit4 s
  | .cellTag3DefB payload => Sys2Proof.Machine.execCellTag3DefB payload s
  | .cellTag4TextC payload => Sys2Proof.Machine.execCellTag4TextC payload s
  | .cellTag5NumC5 value bit4 => Sys2Proof.Machine.execCellTag5NumC5 value bit4 s
  | .cellTag6NumC6 value bit4 => Sys2Proof.Machine.execCellTag6NumC6 value bit4 s
  | .cellTag7TextD payload => Sys2Proof.Machine.execCellTag7TextD payload s
  | .cellTag8NumA8 value bit4 => Sys2Proof.Machine.execCellTag8NumA8 value bit4 s
  | .cellTag9TextE9 payload => Sys2Proof.Machine.execCellTag9TextE9 payload s
  | .cellTag10TextE10 payload => Sys2Proof.Machine.execCellTag10TextE10 payload s
  | .cellTag11TextE11 payload => Sys2Proof.Machine.execCellTag11TextE11 payload s
  | .cellTag12TextF payload => Sys2Proof.Machine.execCellTag12TextF payload s
  | .cellTag13TextDefault13 payload => Sys2Proof.Machine.execCellTag13TextDefault13 payload s
  | .cellTag14TextDefault14 payload => Sys2Proof.Machine.execCellTag14TextDefault14 payload s
  | .cellTag15NumE value bit4 => Sys2Proof.Machine.execCellTag15NumE value bit4 s
  | .sym0Space => Sys2Proof.Machine.execSym0Space s
  | .sym1R => Sys2Proof.Machine.execSym1R s
  | .sym2T => Sys2Proof.Machine.execSym2T s
  | .sym3O => Sys2Proof.Machine.execSym3O s
  | .sym4E => Sys2Proof.Machine.execSym4E s
  | .sym5A => Sys2Proof.Machine.execSym5A s
  | .sym6N => Sys2Proof.Machine.execSym6N s
  | .sym7I => Sys2Proof.Machine.execSym7I s
  | .sym8S => Sys2Proof.Machine.execSym8S s
  | .sym9M => Sys2Proof.Machine.execSym9M s
  | .sym10C => Sys2Proof.Machine.execSym10C s
  | .sym11Y => Sys2Proof.Machine.execSym11Y s
  | .sym12L => Sys2Proof.Machine.execSym12L s
  | .sym13G => Sys2Proof.Machine.execSym13G s
  | .sym14F => Sys2Proof.Machine.execSym14F s
  | .sym15W => Sys2Proof.Machine.execSym15W s
  | .sym16D => Sys2Proof.Machine.execSym16D s
  | .sym17V => Sys2Proof.Machine.execSym17V s
  | .sym18P => Sys2Proof.Machine.execSym18P s
  | .sym19B => Sys2Proof.Machine.execSym19B s
  | .sym20H => Sys2Proof.Machine.execSym20H s
  | .sym21X => Sys2Proof.Machine.execSym21X s
  | .sym22U => Sys2Proof.Machine.execSym22U s
  | .sym23Q => Sys2Proof.Machine.execSym23Q s
  | .sym24Digit0 => Sys2Proof.Machine.execSym24Digit0 s
  | .sym25Digit1 => Sys2Proof.Machine.execSym25Digit1 s
  | .sym26Digit2 => Sys2Proof.Machine.execSym26Digit2 s
  | .sym27Digit3 => Sys2Proof.Machine.execSym27Digit3 s
  | .sym28Digit4 => Sys2Proof.Machine.execSym28Digit4 s
  | .sym29Digit5 => Sys2Proof.Machine.execSym29Digit5 s
  | .sym30Digit6 => Sys2Proof.Machine.execSym30Digit6 s
  | .sym31Digit7 => Sys2Proof.Machine.execSym31Digit7 s
  | .sym32Digit8 => Sys2Proof.Machine.execSym32Digit8 s
  | .sym33Digit9 => Sys2Proof.Machine.execSym33Digit9 s
  | .sym34J => Sys2Proof.Machine.execSym34J s
  | .sym35Minus => Sys2Proof.Machine.execSym35Minus s
  | .sym36K => Sys2Proof.Machine.execSym36K s
  | .sym37Dot => Sys2Proof.Machine.execSym37Dot s
  | .sym38Z => Sys2Proof.Machine.execSym38Z s
  | .sym39Slash => Sys2Proof.Machine.execSym39Slash s
  | .sym40Semicolon => Sys2Proof.Machine.execSym40Semicolon s
  | .sym41Colon => Sys2Proof.Machine.execSym41Colon s
  | .sym42Bang => Sys2Proof.Machine.execSym42Bang s
  | .sym43Plus => Sys2Proof.Machine.execSym43Plus s
  | .sym44At => Sys2Proof.Machine.execSym44At s
  | .sym45Star => Sys2Proof.Machine.execSym45Star s
  | .sym46Comma => Sys2Proof.Machine.execSym46Comma s
  | .sym47Question => Sys2Proof.Machine.execSym47Question s

end Sys2Proof.Machine
end

