-- ==== Sys2Proof/Machine/Sequencer.lean ====
section
/-! DEFINITION. What the RPD does next in each of its situations: an UNPACK in progress, a RUN_BLOCK in progress, idle. -/

namespace Sys2Proof.Machine

/-- The view index of the cell read next: `256*BLK + IDX` (10_state.md R13; 42_block_interpreter.md R132). -/
def nextCellIndex (s : State) : Nat := Config.blockCells * s.blk + s.idx.toNat

/-- One pass of UNPACK's loop, by itself: when no bit of the unconsumed stream is 1 the command ends, and else the next
codeword is decoded and run (41_word_codec.md R110, R113). No command leaves an UNPACK in progress: `execUnpack` is the whole
command in one step (70_reset_and_hazards.md R195). A state that has one in progress lets each codeword of the opcode table be
fetched and run by itself, and its steps give what the command gives (log 2). -/
def stepUnpack (s : State) : Host.Outcome State Fault Refusal :=
  if streamFrom s.unpackCell s.pos = 0#32 then .next (endUnpack s)
  else exec (decodeCodeword (nextBits (streamFrom s.unpackCell s.pos))) s

/-- STEP(): at the window boundary the run ends with END = WINDOW_END, and else the next cell is read, decoded and run
(42_block_interpreter.md R133). -/
def stepBlock (s : State) : Host.Outcome State Fault Refusal :=
  if s.idx = 256#9 then .next (endRun .windowEnd s)
  else match memRead s (nextCellIndex s) with
    | .error f => .fault f
    | .ok c => exec (decodeCell c) s

/-- The idle RPD waits for the host's next move and makes it; with none it holds its state (60_exceptions.md R186;
70_reset_and_hazards.md R190, R191; log 1). -/
def stepIdle (s : State) : Host.Outcome State Fault Refusal :=
  match s.host with
  | [] => .next s
  | .issue r :: rest => exec (decodeCommand r) { s with host := rest }
  | .load a c :: rest => .next (hostLoad a c { s with host := rest })
  | .powerOn :: rest => .next (powerOn { s with host := rest })

/-- The next step: a command in progress goes on before the host is looked at (92_eei_decisions.md D1; R180). -/
def nextStep (s : State) : Host.Outcome State Fault Refusal :=
  if s.unpacking then stepUnpack s
  else match s.phase with
    | .running => stepBlock s
    | .idle => stepIdle s

/-- Where the next fetched cell is put: the run's window with the offset of the next cell inside it. -/
def placeCell (c : Cell) (s : State) : State :=
  { s with
    unpacking := false
    phase := .running
    view := { s.view with len := max s.view.len (Config.blockCells * s.blk + Config.blockCells) }
    store := s.store.write (s.view.base + nextCellIndex s) c }

/-- A cell whose stream starts with a codeword, with zeros behind it; behind the space's `0000` the last stream bit is 1, because
UNPACK takes a space only when a 1 follows (41_word_codec.md R112). -/
def cellOfCodeword (length value : Nat) : Cell :=
  if value = 0 then 0x00000010#32 else codewordWindow length value ++ 0#25

/-- Put an encoding where the next step fetches: a command at the host's port of the idle RPD, a cell at `256*BLK + IDX` of
the view of a run in progress (from offset 0 if the window is used up), a codeword at the front of the stream of an UNPACK
in progress (log 14). -/
def placeNext (e : Encoding) (s : State) : State :=
  match e with
  | .command r => { s with unpacking := false, phase := .idle, host := .issue r :: s.host }
  | .cell c => placeCell c (if s.idx = 256#9 then { s with idx := 0#9 } else s)
  | .codeword length value =>
    { s with unpacking := true, pos := 0, unpackCell := cellOfCodeword length value }

end Sys2Proof.Machine
end

