-- ==== Sys2Proof/Safety.lean ====
section
/-! DEFINITION. The terms the claims are written in: the invariants of the RPD, what the host can see, and the spec's whole
operations (a block's rendering, a word's codeword bits) as plain functions to compare the machine with. -/

namespace Sys2Proof.Machine

/-! ### Legal register contents -/

/-- STATUS holds no value that 10_state.md R14 calls "never written", END is set by a completed run only, and SYMIDX by
UnknownSymbol and WordTooLong only. -/
abbrev legalStatus (st : BitVec 8) : Prop :=
  statusCode st ≤ 5#3 ∧ statusEnd st ≤ 2#2 ∧
  (statusEnd st ≠ 0#2 → statusCode st = 0#3) ∧
  (statusSymidx st ≠ 0#3 → statusCode st = 1#3 ∨ statusCode st = 2#3)

/-- What every step keeps of the registers and the store: the ranges of R12 to R17, the range check's effect on a run in
progress (20_memory.md R33) and the store's canonical form. -/
structure State.Inv (s : State) : Prop where
  storeCanonical : s.store.wf = true
  oneCommand : s.unpacking = true → s.phase = .idle
  idxInWindow : s.idx.toNat ≤ 256
  defcntCounted : s.defcnt.toNat ≤ s.idx.toNat
  windowInView : s.phase = .running → 256 * s.blk + 256 ≤ s.view.len
  statusLegal : legalStatus s.status
  resSymsShort : s.resSyms.length ≤ 7
  nbBound : s.nb ≤ 28
  posBound : s.pos ≤ 34
  unpackProgress : s.unpacking = true → 4 * s.unpackOut.length ≤ s.pos ∧ s.unpackOut.length ≤ 7

/-- Every TEXT or NUM of the stream is followed at once by a SEP, and no SEP stands elsewhere (R138). -/
def tokensSeparated : List Event → Bool
  | [] => true
  | .text _ :: .sep :: rest => tokensSeparated rest
  | .num _ :: .sep :: rest => tokensSeparated rest
  | .text _ :: _ => false
  | .num _ :: _ => false
  | .sep :: _ => false
  | .color _ :: rest => tokensSeparated rest
  | .lineBreak :: rest => tokensSeparated rest

/-- A TEXT event holds at most 7 positions (10_state.md R15). -/
def textShort : Event → Bool
  | .text s => decide (s.length ≤ 7)
  | _ => true

/-- What every step keeps of OUT: the separators (R138), one BREAK for each definition after the first (R143), and the bound
on a token's length (R15). -/
structure State.OutputInv (s : State) : Prop where
  separated : tokensSeparated s.out = true
  breaksCounted : s.out.count .lineBreak = s.defcnt.toNat - 1
  textsShort : s.out.all textShort = true

/-- The host's duty of 20_memory.md R31 for the run in progress: every element the view names is in the store. -/
def State.viewInStore (s : State) : Prop :=
  ∀ a, a < s.view.len → (s.store.read (s.view.base + a)).isSome = true

/-- No command is in progress. -/
def State.isIdle (s : State) : Prop := s.unpacking = false ∧ s.phase = .idle

/-! ### What the host can tell apart -/

/-- Two states that no later result can tell apart: they agree on what the host reads (92_eei_decisions.md D23), on the store
and on the host's moves, and on the working registers of a command in progress. The registers of a command that is not in
progress may differ (R12, R17). -/
structure SameToHost (s t : State) : Prop where
  status : s.status = t.status
  resCell : s.resCell = t.resCell
  resSyms : s.resSyms = t.resSyms
  out : s.out = t.out
  store : s.store = t.store
  host : s.host = t.host
  unpacking : s.unpacking = t.unpacking
  phase : s.phase = t.phase
  running : s.phase = .running → s.blk = t.blk ∧ s.idx = t.idx ∧ s.defcnt = t.defcnt ∧ s.view = t.view
  decoding : s.unpacking = true → s.unpackCell = t.unpackCell ∧ s.pos = t.pos ∧ s.unpackOut = t.unpackOut

/-! ### The dispatcher as the spec's table -/

/-- What a tag's arm renders (30_encoding.md R52). -/
inductive TokenKind where
  | skip | text | num
deriving DecidableEq, Repr

/-- TAGMAP: the colour class and the kind of each of the 16 tags, as the table of 30_encoding.md R52 lists them. -/
def tagMap (tag : BitVec 4) : Option ColourClass × TokenKind :=
  match tag.toNat with
  | 0 => (none, .skip)
  | 1 => (some .a, .text)
  | 2 => (some .a, .num)
  | 3 => (some .b, .text)
  | 4 => (some .c, .text)
  | 5 => (some .c, .num)
  | 6 => (some .c, .num)
  | 7 => (some .d, .text)
  | 8 => (some .a, .num)
  | 9 => (some .e, .text)
  | 10 => (some .e, .text)
  | 11 => (some .e, .text)
  | 12 => (some .f, .text)
  | 13 => (none, .text)
  | 14 => (none, .text)
  | _ => (some .e, .num)

/-- The events DISPATCH(c) emits for a nonzero cell when `defs` tag-3 cells came before it in the run: colour, line break,
token, separator (42_block_interpreter.md R135). -/
def dispatchEvents (c : Cell) (defs : Nat) : List Event :=
  match (tagMap (cellTag c)).2 with
  | .skip => []
  | .text =>
    colourEvents (tagMap (cellTag c)).1 ++ (if cellTag c = 3#4 ∧ defs ≠ 0 then [.lineBreak] else []) ++
      [.text (unpack c), .sep]
  | .num => colourEvents (tagMap (cellTag c)).1 ++ [.num (cellValue c), .sep]

/-- How many definitions a cell adds to DEFCNT (R143). -/
def definitionsIn (c : Cell) : Nat := if cellTag c = 3#4 then 1 else 0

/-- What a run leaves: its events, DEFCNT, IDX and how it ended. -/
structure Rendering where
  events : List Event
  defs : Nat
  visited : Nat
  ended : EndKind
deriving DecidableEq, Repr

/-- The rendering of the cells of a window, in order, up to the first zero cell or the end of the list, when `defs`
definitions came before (42_block_interpreter.md R132 to R135). -/
def renderCells : List Cell → Nat → Rendering
  | [], defs => { events := [], defs := defs, visited := 0, ended := .windowEnd }
  | c :: rest, defs =>
    if c = 0#32 then { events := [], defs := defs, visited := 0, ended := .sentinel }
    else
      { events := dispatchEvents c defs ++ (renderCells rest (defs + definitionsIn c)).events
        defs := (renderCells rest (defs + definitionsIn c)).defs
        visited := (renderCells rest (defs + definitionsIn c)).visited + 1
        ended := (renderCells rest (defs + definitionsIn c)).ended }

/-- The cells stand in the store from the first element of block n of a view on (20_memory.md R31, R32). -/
def blockHolds (store : Memory) (view : View) (n : Nat) (cells : List Cell) : Prop :=
  ∀ k, k < cells.length → store.read (view.base + (256 * n + k)) = cells[k]?

/-! ### Words as codeword bits -/

/-- The bits of a position's codeword, the first one sent first (30_encoding.md R56). -/
def codewordBits (p : Position) : List Bool :=
  (List.range (codewordOf p).length).map fun k => (codewordOf p).value.testBit ((codewordOf p).length - 1 - k)

/-- The bits of a word's codewords one after another (R54). -/
def wordBits (ps : List Position) : List Bool := ps.flatMap codewordBits

/-- The word with its trailing spaces (position 0) removed (41_word_codec.md R112). -/
def dropTrailingSpaces (ps : List Position) : List Position := (ps.reverse.dropWhile (· == 0)).reverse

/-- A 3-bit suffix from its bits, the first the most significant (41_word_codec.md R111). -/
def suffix3 (b2 b1 b0 : Bool) : BitVec 3 := BitVec.ofBool b2 ++ BitVec.ofBool b1 ++ BitVec.ofBool b0

/-- A 5-bit suffix from its bits, the first the most significant (R111). -/
def suffix5 (b4 b3 b2 b1 b0 : Bool) : BitVec 5 := BitVec.ofBool b4 ++ BitVec.ofBool b3 ++ suffix3 b2 b1 b0

/-- CLASSIFY(POS) on the stream's bits (41_word_codec.md R111). -/
def classifyAt (c : Cell) (pos : Nat) : Codeword :=
  if streamBit c pos = false then
    .cw4 (suffix3 (streamBit c (pos + 1)) (streamBit c (pos + 2)) (streamBit c (pos + 3)))
  else if streamBit c (pos + 1) = false then
    .cw5 (suffix3 (streamBit c (pos + 2)) (streamBit c (pos + 3)) (streamBit c (pos + 4)))
  else
    .cw7 (suffix5 (streamBit c (pos + 2)) (streamBit c (pos + 3)) (streamBit c (pos + 4)) (streamBit c (pos + 5))
      (streamBit c (pos + 6)))

/-! ### Tokens as text, outside the RPD -/

/-- A glyph as 10_state.md R10 prints it. For reading only: the RPD's outputs are positions (92_eei_decisions.md D24). -/
def glyphPrinted : Glyph → Char
  | .space => ' ' | .r => 'r' | .t => 't' | .o => 'o' | .e => 'e' | .a => 'a'
  | .n => 'n' | .i => 'i' | .s => 's' | .m => 'm' | .c => 'c' | .y => 'y'
  | .l => 'l' | .g => 'g' | .f => 'f' | .w => 'w' | .d => 'd' | .v => 'v'
  | .p => 'p' | .b => 'b' | .h => 'h' | .x => 'x' | .u => 'u' | .q => 'q'
  | .digit0 => '0' | .digit1 => '1' | .digit2 => '2' | .digit3 => '3' | .digit4 => '4' | .digit5 => '5'
  | .digit6 => '6' | .digit7 => '7' | .digit8 => '8' | .digit9 => '9' | .j => 'j' | .minus => '-'
  | .k => 'k' | .dot => '.' | .z => 'z' | .slash => '/' | .semicolon => ';' | .colon => ':'
  | .bang => '!' | .plus => '+' | .atSign => '@' | .star => '*' | .comma => ',' | .question => '?'

/-- A token as the display writes it: the symbols of a TEXT, a NUM in unsigned decimal, a SEP as one space
(42_block_interpreter.md R137, R138; log 15). -/
def Event.glyphs : Event → List Char
  | .text s => s.map fun p => glyphPrinted (glyphAt p)
  | .num v => Nat.toDigits 10 v.toNat
  | .sep => [glyphPrinted .space]
  | .color _ => []
  | .lineBreak => ['\n']

end Sys2Proof.Machine
end

