-- ==== Sys2Proof/Certificates/Slice0/Obligations.lean ====
section
/-! DEFINITION. The statements for the provers. Each is about the machine; none is about a program. -/

open Sys2Proof Sys2Proof.Machine

/-! ### The Letter Table and the code -/

/-- 10_state.md R10: the canonical order of the 48 symbols, none of them twice. -/
def Obligations.LetterTableOrder : Prop :=
  letterTable =
    [.space, .r, .t, .o, .e, .a, .n, .i, .s, .m, .c, .y, .l, .g, .f, .w,
     .d, .v, .p, .b, .h, .x, .u, .q,
     .digit0, .digit1, .digit2, .digit3, .digit4, .digit5, .digit6, .digit7, .digit8, .digit9,
     .j, .minus, .k, .dot, .z, .slash, .semicolon, .colon, .bang, .plus, .atSign, .star, .comma, .question] ∧
  letterTable.length = 48 ∧ letterTable.Nodup ∧ ∀ p : Position, letterTable[p.val]? = some (glyphAt p)

/-- 40_letter_table.md R81, R82: LOOKUP finds exactly the position of a symbol of the table, fails on every other character,
and SYMBOL_OF undoes it. -/
def Obligations.LookupExact : Prop :=
  (∀ (ch : CHAR) (p : Position), lookup ch = some p ↔ symbolAt p = ch) ∧
  (∀ ch : CHAR, lookup ch = none ↔ ∀ p : Position, symbolAt p ≠ ch) ∧
  ∀ p : Position, symbolOf (codewordOf p) = p

/-- 00_scope.md R4; 40_letter_table.md R81; 92_eei_decisions.md D16: CHAR is an argument. Over every type α of characters that
contains the 48 glyphs, LOOKUP finds exactly the position of a glyph; and every α maps into the characters a command carries
(glyph to glyph, any other character to any other character) so that PACK of the mapped word does what PACK over α does. The
transient registers take free values (log 3); the characters a command carries are the model's choice (log 9). -/
def Obligations.AnyCharType : Prop :=
  ∀ (α : Type) [DecidableEq α] (glyph : Glyph → α), glyph.Injective →
    (∀ (ch : α) (p : Position), lookupIn glyph ch = some p ↔ glyph (glyphAt p) = ch) ∧
    ∀ f : α → CHAR, (∀ sym : Glyph, f (glyph sym) = .glyph sym) →
      (∀ ch : α, (∀ sym : Glyph, glyph sym ≠ ch) → ∃ n, f ch = .other n) →
      ∀ (w : List α) (s : State),
        exec (.pack (w.map f)) s = .next (releaseCodec (packResult (packLoop (lookupIn glyph) w 0 PackRegs.zero) s))

/-- 30_encoding.md R56, R58: the length and the value of every codeword by its position. -/
def Obligations.CodewordFormats : Prop :=
  ∀ p : Position,
    (p.val < 8 → (codewordOf p).length = 4 ∧ (codewordOf p).value = p.val) ∧
    (8 ≤ p.val → p.val < 16 → (codewordOf p).length = 5 ∧ (codewordOf p).value = p.val + 8) ∧
    (16 ≤ p.val → (codewordOf p).length = 7 ∧ (codewordOf p).value = p.val + 80)

/-- 30_encoding.md R57: no codeword is a prefix of another, and every seven bits start with a codeword. -/
def Obligations.CodePrefixFreeComplete : Prop :=
  (∀ p q : Position, codewordBits p <+: codewordBits q → p = q) ∧
  ∀ w : BitVec 7, ∃ p : Position, codewordBits p <+: (List.range 7).map fun k => w.getLsbD (6 - k)

/-- 30_encoding.md R57, R58: a codeword at the front of a stream decodes to its own instruction, whatever bits follow it. -/
def Obligations.CodewordDecodesBeforeAnything : Prop :=
  ∀ (p : Position) (rest : BitVec 7),
    decodeCodeword (codewordWindow (codewordOf p).length (codewordOf p).value ||| rest >>> (codewordOf p).length) =
        symInstr p ∧
      classify (codewordWindow (codewordOf p).length (codewordOf p).value ||| rest >>> (codewordOf p).length) =
        codewordOf p

/-! ### Decode and encode -/

/-- Every well-formed instruction's encoding decodes to it (30_encoding.md R50 to R53, R56, R61). How a command's operands stand
beside its code is the model's choice (log 10). -/
def Obligations.DecodeEncode : Prop :=
  ∀ i : Instr, i.WellFormed → decode (encode i) = .ok i

/-- Every cell decodes to a well-formed instruction whose encoding is that cell: no bit of a cell is dropped. -/
def Obligations.EncodeDecodeCell : Prop :=
  ∀ c : Cell, (decodeCell c).WellFormed ∧ encode (decodeCell c) = .cell c

/-- 30_encoding.md R61: the four command codes. -/
def Obligations.CommandCodes : Prop :=
  ∀ r : Request,
    (r.cmd = 0b00#2 → decodeCommand r = .pack r.word) ∧
    (r.cmd = 0b01#2 → decodeCommand r = .unpack r.cell) ∧
    (r.cmd = 0b10#2 → decodeCommand r = .runBlock r.view r.block) ∧
    (r.cmd = 0b11#2 → decodeCommand r = .reservedCmd)

/-- A few words written out from the spec's encodings decode to what they stand for (40_letter_table.md R80; the cells of
42_block_interpreter.md). Reading the byte 2 as a command is the model's choice (log 11). -/
def Obligations.SampleWordsDecode : Prop :=
  decodeTableWord 8 0b10 = some (.runBlock { base := 0, len := 0 } 0) ∧
  decodeTableWord 8 0b10111 = some .sym15W ∧
  decodeTableWord 8 0b1101000 = some .sym24Digit0 ∧
  decodeTableWord 4 0b0110 = some .sym6N ∧
  decodeTableWord 32 0x3C282003 = some (.cellTag3DefB 0x3C28200#28) ∧
  decodeTableWord 32 0x00000552 = some (.cellTag2NumA 42#27 1#1) ∧
  decodeTableWord 32 0 = some .sentinel

/-- 41_word_codec.md R110: the shift register of the register form holds the stream's bits from POS on, zeros past bit 27
(30_encoding.md R54, R60). -/
def Obligations.RegisterHoldsStream : Prop :=
  ∀ (c : Cell) (pos k : Nat), k < 32 → (streamFrom c pos).getLsbD (31 - k) = streamBit c (pos + k)

/-- 41_word_codec.md R111: the codeword the machine takes at POS is CLASSIFY(POS) on the stream's bits. -/
def Obligations.ClassifyOnStream : Prop :=
  ∀ (c : Cell) (pos : Nat), classify (nextBits (streamFrom c pos)) = classifyAt c pos

/-! ### PACK -/

/-- 41_word_codec.md R100, R102: PACK of a word over the Letter Table whose codewords fit in 28 bits and which is not all
spaces completes, puts the word's codeword bits at the front of RES_CELL's stream with zeros behind them and tag 0, sets STATUS
to 0x00, and writes nothing else but the transient registers. That these take free values at a command's end is the model's
choice (log 3). -/
def Obligations.PackWritesCell : Prop :=
  ∀ (ps : List Position) (s : State), (wordBits ps).length ≤ 28 → (∃ p ∈ ps, p ≠ 0) →
    ∃ cell : Cell,
      exec (.pack (ps.map symbolAt)) s = .next (releaseCodec { s with resCell := cell, status := 0x00#8 }) ∧
      cellTag cell = 0#4 ∧ ∀ k, k ≤ 27 → streamBit cell k = (wordBits ps).getD k false

/-- 41_word_codec.md R100, R101: while PACK accepts symbols, NB is the number of codeword bits so far and ACC holds them, the
first one most significant; NB never passes 28, whatever the word. -/
def Obligations.PackAccumulates : Prop :=
  (∀ ps : List Position, (wordBits ps).length ≤ 28 →
    ∃ r, packLoop lookup (ps.map symbolAt) 0 PackRegs.zero = .ok r ∧ r.nb = (wordBits ps).length ∧
      ∀ k, k < 28 → r.acc.getLsbD k = (decide (k < r.nb) && (wordBits ps).getD (r.nb - 1 - k) false)) ∧
  ∀ (w : List CHAR) (r : PackRegs), packLoop lookup w 0 PackRegs.zero = .ok r → r.nb ≤ 28

/-- 60_exceptions.md R171, R172: the first character outside the Letter Table ends PACK with UnknownSymbol at its position, if
all before it fitted; only STATUS and the transient registers change. The position is 7 at most (41_word_codec.md R101). That
the transient registers take free values at a command's end is the model's choice (log 3). -/
def Obligations.PackUnknownSymbol : Prop :=
  ∀ (ps : List Position) (ch : CHAR) (rest : List CHAR) (s : State),
    (wordBits ps).length ≤ 28 → (∀ p : Position, symbolAt p ≠ ch) →
    ps.length ≤ 7 ∧
    exec (.pack (ps.map symbolAt ++ ch :: rest)) s =
      .next (releaseCodec { s with status := (BitVec.ofNat 3 ps.length ++ 0#2 ++ 1#3 : BitVec 8) })

/-- 60_exceptions.md R171, R173: the first codeword that would pass 28 bits ends PACK with WordTooLong at its position; only
STATUS and the transient registers change. The position is 7 at most (41_word_codec.md R101). That the transient registers take
free values at a command's end is the model's choice (log 3). -/
def Obligations.PackWordTooLong : Prop :=
  ∀ (ps : List Position) (p : Position) (rest : List CHAR) (s : State),
    (wordBits ps).length ≤ 28 → 28 < (wordBits ps).length + (codewordBits p).length →
    ps.length ≤ 7 ∧
    exec (.pack (ps.map symbolAt ++ symbolAt p :: rest)) s =
      .next (releaseCodec { s with status := (BitVec.ofNat 3 ps.length ++ 0#2 ++ 2#3 : BitVec 8) })

/-- 41_word_codec.md R103; 60_exceptions.md R171, R174: the empty word, and a word of spaces that fits, end with EmptyWord; only
STATUS and the transient registers change. That the transient registers take free values at a command's end is the model's
choice (log 3). -/
def Obligations.PackEmptyWord : Prop :=
  ∀ (n : Nat) (s : State), n ≤ 7 →
    exec (.pack (List.replicate n (CHAR.glyph .space))) s = .next (releaseCodec { s with status := 0x03#8 })

/-- 60_exceptions.md R171; 41_word_codec.md R100, R103: whatever the word, PACK completes, writing only RES_CELL, STATUS and
the transient registers; either STATUS is 0x00 and the new RES_CELL is a nonzero cell of tag 0, or an error of PACK is
reported and RES_CELL is as it was. That the transient registers take free values at a command's end is the model's choice
(log 3). -/
def Obligations.PackOutcomes : Prop :=
  ∀ (w : List CHAR) (s : State), ∃ (cell : Cell) (st : BitVec 8),
    exec (.pack w) s = .next (releaseCodec { s with resCell := cell, status := st }) ∧
    ((st = 0x00#8 ∧ cell ≠ 0#32 ∧ cellTag cell = 0#4) ∨
      (cell = s.resCell ∧ statusEnd st = 0#2 ∧
        (statusCode st = 1#3 ∨ statusCode st = 2#3 ∨ (statusCode st = 3#3 ∧ statusSymidx st = 0#3))))

/-- 41_word_codec.md R112, R115: a packed word, whatever tag is put on it, unpacks to the word without its trailing spaces;
to the word itself if its last symbol is not the space. -/
def Obligations.PackUnpackRoundTrip : Prop :=
  ∀ (ps : List Position) (s : State) (tag : BitVec 4), (wordBits ps).length ≤ 28 → (∃ p ∈ ps, p ≠ 0) →
    ∃ t, exec (.pack (ps.map symbolAt)) s = .next t ∧ t.status = 0x00#8 ∧
      unpack (t.resCell ||| tag.setWidth 32) = dropTrailingSpaces ps ∧
      (ps.getLast? ≠ some 0 → unpack (t.resCell ||| tag.setWidth 32) = ps)

/-! ### UNPACK -/

/-- 41_word_codec.md R110, R113; 70_reset_and_hazards.md R195: UNPACK of any cell completes in one step with RES_SYMS =
unpack(c) and STATUS = 0x00, at most 7 symbols, writing nothing else but the transient registers and the model's own latch of
the operand; and from the state in which it has begun, steps that take one codeword each reach the same state. The latch and the
codeword steps are the model's choice (log 5, log 2), and so is that the transient registers take free values (log 3). -/
def Obligations.UnpackCompletes : Prop :=
  ∀ (c : Cell) (s : State),
    exec (.unpack c) s = .next (releaseCodec
      { s with unpacking := false, unpackCell := c, resSyms := unpack c, status := 0x00#8 }) ∧
    Sys2Proof.core.run ((unpack c).length + 1)
        { s with unpacking := true, unpackCell := c, pos := 0, unpackOut := [] } =
      .next (releaseCodec
        { s with unpacking := false, unpackCell := c, resSyms := unpack c, status := 0x00#8 }) ∧
    (unpack c).length ≤ 7

/-- 41_word_codec.md R113: the loop ends by itself within seven passes; a longer bound changes nothing. -/
def Obligations.UnpackSevenPasses : Prop :=
  ∀ (c : Cell) (fuel : Nat), 7 ≤ fuel → unpackFrom fuel (streamWord c) = unpack c

/-- 41_word_codec.md R114: UNPACK(c) = UNPACK(c & 0xFFFFFFF0), and so the same for every tag. -/
def Obligations.UnpackIgnoresTag : Prop :=
  (∀ c : Cell, unpack c = unpack (c &&& 0xFFFFFFF0#32)) ∧
  ∀ (payload : BitVec 28) (tag tag' : BitVec 4), unpack (textCell payload tag) = unpack (textCell payload tag')

/-- 40_letter_table.md R82; 41_word_codec.md R110: each of the 48 codeword instructions completes: it appends its own position
to UNPACK's output, advances POS by its codeword's length, and changes nothing else. That a codeword is an instruction with a
meaning of its own, total also when no UNPACK is in progress, is the model's choice (log 2, log 18). -/
def Obligations.CodewordsTaken : Prop :=
  (List.finRange 48).map symInstr =
    [.sym0Space, .sym1R, .sym2T, .sym3O, .sym4E, .sym5A, .sym6N, .sym7I,
     .sym8S, .sym9M, .sym10C, .sym11Y, .sym12L, .sym13G, .sym14F, .sym15W,
     .sym16D, .sym17V, .sym18P, .sym19B, .sym20H, .sym21X, .sym22U, .sym23Q,
     .sym24Digit0, .sym25Digit1, .sym26Digit2, .sym27Digit3, .sym28Digit4, .sym29Digit5, .sym30Digit6, .sym31Digit7,
     .sym32Digit8, .sym33Digit9, .sym34J, .sym35Minus, .sym36K, .sym37Dot, .sym38Z, .sym39Slash,
     .sym40Semicolon, .sym41Colon, .sym42Bang, .sym43Plus, .sym44At, .sym45Star, .sym46Comma, .sym47Question] ∧
  ∀ (p : Position) (s : State),
    exec (symInstr p) s =
      .next { s with unpackOut := s.unpackOut ++ [p], pos := s.pos + (codewordBits p).length }

/-! ### RUN_BLOCK -/

/-- 42_block_interpreter.md R131: an accepted RUN_BLOCK enters with DEFCNT, IDX and OUT cleared, BLK = n and PHASE = RUNNING.
That a field of State holds the view for the run is the model's choice (log 5). -/
def Obligations.RunBlockEnters : Prop :=
  ∀ (view : View) (n : Nat) (s : State), 256 * n + 256 ≤ view.len →
    exec (.runBlock view n) s =
      .next { s with defcnt := 0#9, blk := n, idx := 0#9, out := [], phase := .running, view := view }

/-- 60_exceptions.md R175: a window not wholly inside the view is OutOfRangeBlock, and only STATUS changes. -/
def Obligations.RunBlockOutOfRange : Prop :=
  ∀ (view : View) (n : Nat) (s : State), view.len < 256 * n + 256 →
    exec (.runBlock view n) s = .next { s with status := 0x04#8 }

/-- 60_exceptions.md R177: the reserved command code is IllegalCommand, and only STATUS changes. -/
def Obligations.ReservedCommand : Prop :=
  ∀ s : State, exec .reservedCmd s = .next { s with status := 0x05#8 }

/-- 42_block_interpreter.md R140 (with R133's IDX + 1): a tag-0 cell with a nonzero payload is skipped. -/
def Obligations.SkipArm : Prop :=
  ∀ (payload : BitVec 28) (s : State), exec (.cellTag0Skip payload) s = .next { s with idx := s.idx + 1#9 }

/-- 42_block_interpreter.md R141, R144, R147, R149 to R154 (with R133's IDX + 1): the nine text arms. The text is unpack of
the payload with any tag (R114; here tag 0). -/
def Obligations.TextArms : Prop :=
  ∀ (p : BitVec 28) (s : State),
    exec (.cellTag1TextA p) s =
      .next { s with out := s.out ++ [.color .a, .text (unpack (textCell p 0#4)), .sep], idx := s.idx + 1#9 } ∧
    exec (.cellTag4TextC p) s =
      .next { s with out := s.out ++ [.color .c, .text (unpack (textCell p 0#4)), .sep], idx := s.idx + 1#9 } ∧
    exec (.cellTag7TextD p) s =
      .next { s with out := s.out ++ [.color .d, .text (unpack (textCell p 0#4)), .sep], idx := s.idx + 1#9 } ∧
    exec (.cellTag9TextE9 p) s =
      .next { s with out := s.out ++ [.color .e, .text (unpack (textCell p 0#4)), .sep], idx := s.idx + 1#9 } ∧
    exec (.cellTag10TextE10 p) s =
      .next { s with out := s.out ++ [.color .e, .text (unpack (textCell p 0#4)), .sep], idx := s.idx + 1#9 } ∧
    exec (.cellTag11TextE11 p) s =
      .next { s with out := s.out ++ [.color .e, .text (unpack (textCell p 0#4)), .sep], idx := s.idx + 1#9 } ∧
    exec (.cellTag12TextF p) s =
      .next { s with out := s.out ++ [.color .f, .text (unpack (textCell p 0#4)), .sep], idx := s.idx + 1#9 } ∧
    exec (.cellTag13TextDefault13 p) s =
      .next { s with out := s.out ++ [.text (unpack (textCell p 0#4)), .sep], idx := s.idx + 1#9 } ∧
    exec (.cellTag14TextDefault14 p) s =
      .next { s with out := s.out ++ [.text (unpack (textCell p 0#4)), .sep], idx := s.idx + 1#9 }

/-- 42_block_interpreter.md R142, R145, R146, R148, R155 (with R133's IDX + 1): the five numeric arms; bit 4 does not
matter. -/
def Obligations.NumericArms : Prop :=
  ∀ (v : BitVec 27) (b : BitVec 1) (s : State),
    exec (.cellTag2NumA v b) s = .next { s with out := s.out ++ [.color .a, .num v, .sep], idx := s.idx + 1#9 } ∧
    exec (.cellTag5NumC5 v b) s = .next { s with out := s.out ++ [.color .c, .num v, .sep], idx := s.idx + 1#9 } ∧
    exec (.cellTag6NumC6 v b) s = .next { s with out := s.out ++ [.color .c, .num v, .sep], idx := s.idx + 1#9 } ∧
    exec (.cellTag8NumA8 v b) s = .next { s with out := s.out ++ [.color .a, .num v, .sep], idx := s.idx + 1#9 } ∧
    exec (.cellTag15NumE v b) s = .next { s with out := s.out ++ [.color .e, .num v, .sep], idx := s.idx + 1#9 }

/-- 42_block_interpreter.md R143 (with R133's IDX + 1): the definition arm, its line break and its counter. -/
def Obligations.DefinitionArm : Prop :=
  ∀ (p : BitVec 28) (s : State),
    (s.defcnt = 0#9 → exec (.cellTag3DefB p) s =
      .next { s with out := s.out ++ [.color .b, .text (unpack (textCell p 0#4)), .sep], defcnt := 1#9,
                     idx := s.idx + 1#9 }) ∧
    (s.defcnt ≠ 0#9 → exec (.cellTag3DefB p) s =
      .next { s with out := s.out ++ [.color .b, .lineBreak, .text (unpack (textCell p 0#4)), .sep],
                     defcnt := s.defcnt + 1#9, idx := s.idx + 1#9 })

/-- 42_block_interpreter.md R135 with the table of 30_encoding.md R52: every nonzero cell is dispatched as the table and the
fixed event order say, and changes OUT, DEFCNT (tag 3 only) and IDX, nothing else. -/
def Obligations.DispatchFollowsTagMap : Prop :=
  ∀ (c : Cell) (s : State), c ≠ 0#32 →
    exec (decodeCell c) s =
      .next { s with
        out := s.out ++ dispatchEvents c s.defcnt.toNat
        defcnt := s.defcnt + BitVec.ofNat 9 (definitionsIn c)
        idx := s.idx + 1#9 }

/-- 30_encoding.md R53: two numeric cells that differ only in bit 4 do the same. -/
def Obligations.NumericBit4Ignored : Prop :=
  ∀ (c : Cell) (s : State),
    (cellTag c = 2#4 ∨ cellTag c = 5#4 ∨ cellTag c = 6#4 ∨ cellTag c = 8#4 ∨ cellTag c = 15#4) →
    exec (decodeCell (c ^^^ 0x00000010#32)) s = exec (decodeCell c) s

/-- 42_block_interpreter.md R132, R133: the sentinel ends the run with END = SENTINEL, IDX keeps its offset, and nothing but
PHASE and STATUS changes. -/
def Obligations.SentinelEndsRun : Prop :=
  (∀ s : State, exec .sentinel s = .next { s with phase := .idle, status := 0x08#8 }) ∧
  ∀ s : State, s.unpacking = false → s.phase = .running → s.idx ≠ 256#9 →
    memRead s (256 * s.blk + s.idx.toNat) = .ok 0#32 →
    step s = .next { s with phase := .idle, status := 0x08#8 }

/-- 42_block_interpreter.md R133: at IDX = 256 the run ends with END = WINDOW_END and no cell is read. -/
def Obligations.WindowEndsRun : Prop :=
  ∀ s : State, s.unpacking = false → s.phase = .running → s.idx = 256#9 →
    step s = .next { s with phase := .idle, status := 0x10#8 }

/-- 42_block_interpreter.md R130 to R135: an accepted RUN_BLOCK on a block whose cells, as far as its first zero cell, stand in
the store runs to its end within 257 steps: OUT, DEFCNT, IDX and STATUS are those of the block's rendering, BLK is n, PHASE is
IDLE, the view field holds the operand, and nothing else changes. Cells after the sentinel may be anything, or missing from the
store (20_memory.md R37). The view field is the model's choice (log 5). -/
def Obligations.RunBlockRenders : Prop :=
  ∀ (view : View) (n : Nat) (cells : List Cell) (s : State),
    s.unpacking = false → 256 * n + 256 ≤ view.len → blockHolds s.store view n cells →
    (cells.length = 256 ∨ (cells.length ≤ 256 ∧ 0#32 ∈ cells)) →
    ∃ t k, exec (.runBlock view n) s = .next t ∧ k ≤ 257 ∧
      Sys2Proof.core.run k t = .next
        { s with
          defcnt := BitVec.ofNat 9 (renderCells cells 0).defs
          blk := n
          idx := BitVec.ofNat 9 (renderCells cells 0).visited
          out := (renderCells cells 0).events
          phase := .idle
          view := view
          status := runStatus (renderCells cells 0).ended }

/-! ### The machine -/

/-- A step runs the decoded instruction: the command the host issues to the idle RPD, the cell at 256*BLK + IDX of a run in
progress, the codeword at POS of an UNPACK in progress. The host's list of moves, and the state with an UNPACK in progress and its steps, are
the model's choice (log 1, log 2). -/
def Obligations.StepRunsDecoded : Prop :=
  (∀ (s : State) (r : Request) (rest : List HostMove),
    s.unpacking = false → s.phase = .idle → s.host = .issue r :: rest →
    step s = exec (decodeCommand r) { s with host := rest }) ∧
  (∀ (s : State) (c : Cell),
    s.unpacking = false → s.phase = .running → s.idx ≠ 256#9 → 256 * s.blk + s.idx.toNat < s.view.len →
    s.store.read (s.view.base + (256 * s.blk + s.idx.toNat)) = some c →
    step s = exec (decodeCell c) s) ∧
  (∀ s : State,
    s.unpacking = true → streamFrom s.unpackCell s.pos ≠ 0#32 →
    step s = exec (decodeCodeword (nextBits (streamFrom s.unpackCell s.pos))) s)

/-- 70_reset_and_hazards.md R195, R196: every command but RUN_BLOCK is one atomic step, after which the RPD is idle with the
host's later moves waiting; and no step from a state with no UNPACK in progress leaves one in progress, so that UNPACK is never
seen half done. The host's list of moves and the mark of an UNPACK in progress are the model's choice (log 1, log 2). -/
def Obligations.CommandsAtomic : Prop :=
  (∀ (s : State) (r : Request) (rest : List HostMove), s.isIdle → s.host = .issue r :: rest → r.cmd ≠ 0b10#2 →
    ∃ t, step s = .next t ∧ t.isIdle ∧ t.host = rest) ∧
  ∀ s t : State, s.unpacking = false → step s = .next t → t.unpacking = false

/-- Every instruction's meaning answers a next state in every state: no command has a third outcome (60_exceptions.md R170), no
tag, text or codeword is an error (R176). That a cell or a codeword has its meaning also when no command reads it is the model's
choice (log 18). -/
def Obligations.EveryMeaningCompletes : Prop :=
  ∀ (i : Instr) (s : State), ∃ t, exec i s = .next t

/-- 70_reset_and_hazards.md R190: the reset values the spec gives. -/
def Obligations.ResetValues : Prop :=
  State.reset.defcnt = 0#9 ∧ State.reset.phase = .idle ∧ State.reset.blk = 0 ∧ State.reset.idx = 0#9 ∧
  State.reset.status = 0x00#8 ∧ State.reset.out = [] ∧ State.reset.resCell = 0#32 ∧ State.reset.resSyms = []

/-- 10_state.md R14: the fields of STATUS are where R14 puts them. -/
def Obligations.StatusFields : Prop :=
  ∀ (code : BitVec 3) (e : BitVec 2) (symidx : BitVec 3),
    statusCode (mkStatus code e symidx) = code ∧ statusEnd (mkStatus code e symidx) = e ∧
    statusSymidx (mkStatus code e symidx) = symidx ∧
    (mkStatus code e symidx).toNat = symidx.toNat * 32 + e.toNat * 8 + code.toNat

/-- The invariants hold at reset. ACC, NB, POS and UNPACK's output at reset are the model's choice (log 4), the model's own
fields too (log 5); of them the invariant only bounds NB and POS by R17's ranges. -/
def Obligations.ResetMeetsInvariants : Prop := State.reset.Inv ∧ State.reset.OutputInv

/-- Every step keeps the invariant of the registers and the store (10_state.md R12 to R17; 20_memory.md R33). -/
def Obligations.StepKeepsInvariant : Prop :=
  ∀ s t : State, s.Inv → step s = .next t → t.Inv

/-- Every step keeps the invariant of OUT: each token has its separator (42_block_interpreter.md R138), there is one BREAK for
each definition after the first (R143), and no token is longer than 7 symbols (10_state.md R15). -/
def Obligations.StepKeepsOutputInvariant : Prop :=
  ∀ s t : State, s.Inv → s.OutputInv → step s = .next t → t.OutputInv

/-- 00_scope.md R3; 20_memory.md R30: no step writes the Cell Store, but for the host's own move that loads a cell. -/
def Obligations.OnlyHostWritesStore : Prop :=
  ∀ s t : State, step s = .next t →
    t.store = s.store ∨
    (s.isIdle ∧ ∃ a c rest, s.host = .load a c :: rest ∧ t.store = s.store.write a c)

/-- A cell written by the host reads back, and every other cell of the store is as before (20_memory.md R30, R42). The
list form of the store is the model's (log 6). -/
def Obligations.StoreReadAfterWrite : Prop :=
  ∀ (m : Memory) (a b : Nat) (c : Cell), (m.write a c).read b = if b = a then some c else m.read b

/-- 20_memory.md R42: a store change the host makes between two commands is seen by the next read, and changes no register.
The host's moves are the model's form (log 1). -/
def Obligations.HostLoadSeen : Prop :=
  ∀ (s : State) (a : Nat) (c : Cell) (rest : List HostMove), s.isIdle → s.host = .load a c :: rest →
    ∃ t, step s = .next t ∧ t = { s with host := rest, store := t.store } ∧
      ∀ b, t.store.read b = if b = a then some c else s.store.read b

/-- 70_reset_and_hazards.md R190, R191: power-on between commands puts every register at its reset value; the store, which is
outside the RPD, is untouched (log 13). -/
def Obligations.PowerOnResets : Prop :=
  ∀ (s : State) (rest : List HostMove), s.isIdle → s.host = .powerOn :: rest →
    ∃ t, step s = .next t ∧ t.defcnt = 0#9 ∧ t.phase = .idle ∧ t.blk = 0 ∧ t.idx = 0#9 ∧ t.status = 0x00#8 ∧
      t.out = [] ∧ t.resCell = 0#32 ∧ t.resSyms = [] ∧ t.unpacking = false ∧ t.store = s.store ∧ t.host = rest

/-- 60_exceptions.md R186: between commands, with no move of the host, the RPD holds its state (log 1). -/
def Obligations.IdleHoldsState : Prop :=
  ∀ s : State, s.isIdle → s.host = [] → step s = .next s

/-- 60_exceptions.md R180; 92_eei_decisions.md D1: while a command is in progress nothing the host is about to do has an
effect: a step gives the same with any other moves waiting, and leaves them waiting (log 1). -/
def Obligations.CommandNotInterrupted : Prop :=
  ∀ (s : State) (moves : List HostMove), ¬ s.isIdle →
    (∀ t, step s = .next t → step { s with host := moves } = .next { t with host := moves }) ∧
    (∀ f, step s = .fault f → step { s with host := moves } = .fault f)

/-- 20_memory.md R33, R38: in a state that meets the invariant no read goes outside the view, and if the store has the cells of
the view (the host's duty of R31) the step answers a next state. The two faults are the model's (log 7, log 8). -/
def Obligations.ReadsStayInView : Prop :=
  ∀ s : State, s.Inv →
    (∀ a, step s ≠ .fault (.outsideView a)) ∧
    ((s.phase = .running → s.viewInStore) → ∃ t, step s = .next t)

/-- 60_exceptions.md R170; 42_block_interpreter.md R133, R134: in a state of the invariant, if a RUN_BLOCK in progress has its
view in the store (the host's duty of 20_memory.md R31, log 7), the command in progress ends, with the RPD idle, within 257
steps, and the host's moves still wait. The list of moves and the UNPACK in progress are the model's choice (log 1, log 2). -/
def Obligations.CommandsAlwaysEnd : Prop :=
  ∀ s : State, s.Inv → ¬ s.isIdle → (s.phase = .running → s.viewInStore) →
    ∃ k t, k ≤ 257 ∧ Sys2Proof.core.run k s = .next t ∧ t.isIdle ∧ t.host = s.host

/-- 10_state.md R12, R17; 92_eei_decisions.md D23: what the host cannot read and no command in progress uses has no effect on
anything it can read later: two states that differ only there step alike. -/
def Obligations.HiddenStateUnobservable : Prop :=
  ∀ s t : State, SameToHost s t →
    (∀ s', step s = .next s' → ∃ t', step t = .next t' ∧ SameToHost s' t') ∧
    (∀ f, step s = .fault f → step t = .fault f)
end

