-- ==== Sys2Proof/Laws/State.lean ====
section
/-! SUPPORT. What each named operation does to each field of the state, one lemma a field, true by definition, so that no
proof unfolds a record update. -/

namespace Sys2Proof.Machine

@[simp] theorem reset_defcnt : State.reset.defcnt = 0#9 := rfl
@[simp] theorem reset_phase : State.reset.phase = .idle := rfl
@[simp] theorem reset_blk : State.reset.blk = 0 := rfl
@[simp] theorem reset_idx : State.reset.idx = 0#9 := rfl
@[simp] theorem reset_status : State.reset.status = 0x00#8 := rfl
@[simp] theorem reset_resCell : State.reset.resCell = 0#32 := rfl
@[simp] theorem reset_resSyms : State.reset.resSyms = [] := rfl
@[simp] theorem reset_out : State.reset.out = [] := rfl
@[simp] theorem reset_acc : State.reset.acc = 0#28 := rfl
@[simp] theorem reset_nb : State.reset.nb = 0 := rfl
@[simp] theorem reset_pos : State.reset.pos = 0 := rfl
@[simp] theorem reset_unpackOut : State.reset.unpackOut = [] := rfl
@[simp] theorem reset_unpacking : State.reset.unpacking = false := rfl
@[simp] theorem reset_unpackCell : State.reset.unpackCell = 0#32 := rfl
@[simp] theorem reset_view : State.reset.view = { base := 0, len := 0 } := rfl
@[simp] theorem reset_store : State.reset.store = [] := rfl
@[simp] theorem reset_host : State.reset.host = [] := rfl
@[simp] theorem reset_freeCtr : State.reset.freeCtr = 0 := rfl

@[simp] theorem hostLoad_defcnt (a : Nat) (c : Cell) (s : State) : (hostLoad a c s).defcnt = s.defcnt := rfl
@[simp] theorem hostLoad_phase (a : Nat) (c : Cell) (s : State) : (hostLoad a c s).phase = s.phase := rfl
@[simp] theorem hostLoad_blk (a : Nat) (c : Cell) (s : State) : (hostLoad a c s).blk = s.blk := rfl
@[simp] theorem hostLoad_idx (a : Nat) (c : Cell) (s : State) : (hostLoad a c s).idx = s.idx := rfl
@[simp] theorem hostLoad_status (a : Nat) (c : Cell) (s : State) : (hostLoad a c s).status = s.status := rfl
@[simp] theorem hostLoad_resCell (a : Nat) (c : Cell) (s : State) : (hostLoad a c s).resCell = s.resCell := rfl
@[simp] theorem hostLoad_resSyms (a : Nat) (c : Cell) (s : State) : (hostLoad a c s).resSyms = s.resSyms := rfl
@[simp] theorem hostLoad_out (a : Nat) (c : Cell) (s : State) : (hostLoad a c s).out = s.out := rfl
@[simp] theorem hostLoad_acc (a : Nat) (c : Cell) (s : State) : (hostLoad a c s).acc = s.acc := rfl
@[simp] theorem hostLoad_nb (a : Nat) (c : Cell) (s : State) : (hostLoad a c s).nb = s.nb := rfl
@[simp] theorem hostLoad_pos (a : Nat) (c : Cell) (s : State) : (hostLoad a c s).pos = s.pos := rfl
@[simp] theorem hostLoad_unpackOut (a : Nat) (c : Cell) (s : State) : (hostLoad a c s).unpackOut = s.unpackOut := rfl
@[simp] theorem hostLoad_unpacking (a : Nat) (c : Cell) (s : State) : (hostLoad a c s).unpacking = s.unpacking := rfl
@[simp] theorem hostLoad_unpackCell (a : Nat) (c : Cell) (s : State) : (hostLoad a c s).unpackCell = s.unpackCell := rfl
@[simp] theorem hostLoad_view (a : Nat) (c : Cell) (s : State) : (hostLoad a c s).view = s.view := rfl
@[simp] theorem hostLoad_store (a : Nat) (c : Cell) (s : State) : (hostLoad a c s).store = s.store.write a c := rfl
@[simp] theorem hostLoad_host (a : Nat) (c : Cell) (s : State) : (hostLoad a c s).host = s.host := rfl
@[simp] theorem hostLoad_freeCtr (a : Nat) (c : Cell) (s : State) : (hostLoad a c s).freeCtr = s.freeCtr := rfl

@[simp] theorem raise_defcnt (e : ErrorKind) (info : Nat) (s : State) : (raise e info s).defcnt = s.defcnt := rfl
@[simp] theorem raise_phase (e : ErrorKind) (info : Nat) (s : State) : (raise e info s).phase = s.phase := rfl
@[simp] theorem raise_blk (e : ErrorKind) (info : Nat) (s : State) : (raise e info s).blk = s.blk := rfl
@[simp] theorem raise_idx (e : ErrorKind) (info : Nat) (s : State) : (raise e info s).idx = s.idx := rfl
@[simp] theorem raise_status (e : ErrorKind) (info : Nat) (s : State) :
    (raise e info s).status = errorStatus e info := rfl
@[simp] theorem raise_resCell (e : ErrorKind) (info : Nat) (s : State) : (raise e info s).resCell = s.resCell := rfl
@[simp] theorem raise_resSyms (e : ErrorKind) (info : Nat) (s : State) : (raise e info s).resSyms = s.resSyms := rfl
@[simp] theorem raise_out (e : ErrorKind) (info : Nat) (s : State) : (raise e info s).out = s.out := rfl
@[simp] theorem raise_acc (e : ErrorKind) (info : Nat) (s : State) : (raise e info s).acc = s.acc := rfl
@[simp] theorem raise_nb (e : ErrorKind) (info : Nat) (s : State) : (raise e info s).nb = s.nb := rfl
@[simp] theorem raise_pos (e : ErrorKind) (info : Nat) (s : State) : (raise e info s).pos = s.pos := rfl
@[simp] theorem raise_unpackOut (e : ErrorKind) (info : Nat) (s : State) :
    (raise e info s).unpackOut = s.unpackOut := rfl
@[simp] theorem raise_unpacking (e : ErrorKind) (info : Nat) (s : State) :
    (raise e info s).unpacking = s.unpacking := rfl
@[simp] theorem raise_unpackCell (e : ErrorKind) (info : Nat) (s : State) :
    (raise e info s).unpackCell = s.unpackCell := rfl
@[simp] theorem raise_view (e : ErrorKind) (info : Nat) (s : State) : (raise e info s).view = s.view := rfl
@[simp] theorem raise_store (e : ErrorKind) (info : Nat) (s : State) : (raise e info s).store = s.store := rfl
@[simp] theorem raise_host (e : ErrorKind) (info : Nat) (s : State) : (raise e info s).host = s.host := rfl
@[simp] theorem raise_freeCtr (e : ErrorKind) (info : Nat) (s : State) : (raise e info s).freeCtr = s.freeCtr := rfl

@[simp] theorem releaseCodec_defcnt (s : State) : (releaseCodec s).defcnt = s.defcnt := rfl
@[simp] theorem releaseCodec_phase (s : State) : (releaseCodec s).phase = s.phase := rfl
@[simp] theorem releaseCodec_blk (s : State) : (releaseCodec s).blk = s.blk := rfl
@[simp] theorem releaseCodec_idx (s : State) : (releaseCodec s).idx = s.idx := rfl
@[simp] theorem releaseCodec_status (s : State) : (releaseCodec s).status = s.status := rfl
@[simp] theorem releaseCodec_resCell (s : State) : (releaseCodec s).resCell = s.resCell := rfl
@[simp] theorem releaseCodec_resSyms (s : State) : (releaseCodec s).resSyms = s.resSyms := rfl
@[simp] theorem releaseCodec_out (s : State) : (releaseCodec s).out = s.out := rfl
@[simp] theorem releaseCodec_acc (s : State) : (releaseCodec s).acc = Config.freeAcc s.freeCtr := rfl
@[simp] theorem releaseCodec_nb (s : State) : (releaseCodec s).nb = (Config.freeNb s.freeCtr).val := rfl
@[simp] theorem releaseCodec_pos (s : State) : (releaseCodec s).pos = (Config.freePos s.freeCtr).val := rfl
@[simp] theorem releaseCodec_unpackOut (s : State) : (releaseCodec s).unpackOut = Config.freeUnpackOut s.freeCtr := rfl
@[simp] theorem releaseCodec_unpacking (s : State) : (releaseCodec s).unpacking = s.unpacking := rfl
@[simp] theorem releaseCodec_unpackCell (s : State) : (releaseCodec s).unpackCell = s.unpackCell := rfl
@[simp] theorem releaseCodec_view (s : State) : (releaseCodec s).view = s.view := rfl
@[simp] theorem releaseCodec_store (s : State) : (releaseCodec s).store = s.store := rfl
@[simp] theorem releaseCodec_host (s : State) : (releaseCodec s).host = s.host := rfl
@[simp] theorem releaseCodec_freeCtr (s : State) : (releaseCodec s).freeCtr = s.freeCtr + 1 := rfl

@[simp] theorem beginUnpack_defcnt (c : Cell) (s : State) : (beginUnpack c s).defcnt = s.defcnt := rfl
@[simp] theorem beginUnpack_phase (c : Cell) (s : State) : (beginUnpack c s).phase = s.phase := rfl
@[simp] theorem beginUnpack_blk (c : Cell) (s : State) : (beginUnpack c s).blk = s.blk := rfl
@[simp] theorem beginUnpack_idx (c : Cell) (s : State) : (beginUnpack c s).idx = s.idx := rfl
@[simp] theorem beginUnpack_status (c : Cell) (s : State) : (beginUnpack c s).status = s.status := rfl
@[simp] theorem beginUnpack_resCell (c : Cell) (s : State) : (beginUnpack c s).resCell = s.resCell := rfl
@[simp] theorem beginUnpack_resSyms (c : Cell) (s : State) : (beginUnpack c s).resSyms = s.resSyms := rfl
@[simp] theorem beginUnpack_out (c : Cell) (s : State) : (beginUnpack c s).out = s.out := rfl
@[simp] theorem beginUnpack_acc (c : Cell) (s : State) : (beginUnpack c s).acc = s.acc := rfl
@[simp] theorem beginUnpack_nb (c : Cell) (s : State) : (beginUnpack c s).nb = s.nb := rfl
@[simp] theorem beginUnpack_pos (c : Cell) (s : State) : (beginUnpack c s).pos = 0 := rfl
@[simp] theorem beginUnpack_unpackOut (c : Cell) (s : State) : (beginUnpack c s).unpackOut = [] := rfl
@[simp] theorem beginUnpack_unpacking (c : Cell) (s : State) : (beginUnpack c s).unpacking = true := rfl
@[simp] theorem beginUnpack_unpackCell (c : Cell) (s : State) : (beginUnpack c s).unpackCell = c := rfl
@[simp] theorem beginUnpack_view (c : Cell) (s : State) : (beginUnpack c s).view = s.view := rfl
@[simp] theorem beginUnpack_store (c : Cell) (s : State) : (beginUnpack c s).store = s.store := rfl
@[simp] theorem beginUnpack_host (c : Cell) (s : State) : (beginUnpack c s).host = s.host := rfl
@[simp] theorem beginUnpack_freeCtr (c : Cell) (s : State) : (beginUnpack c s).freeCtr = s.freeCtr := rfl

@[simp] theorem takeCodeword_defcnt (cw : Codeword) (s : State) : (takeCodeword cw s).defcnt = s.defcnt := rfl
@[simp] theorem takeCodeword_phase (cw : Codeword) (s : State) : (takeCodeword cw s).phase = s.phase := rfl
@[simp] theorem takeCodeword_blk (cw : Codeword) (s : State) : (takeCodeword cw s).blk = s.blk := rfl
@[simp] theorem takeCodeword_idx (cw : Codeword) (s : State) : (takeCodeword cw s).idx = s.idx := rfl
@[simp] theorem takeCodeword_status (cw : Codeword) (s : State) : (takeCodeword cw s).status = s.status := rfl
@[simp] theorem takeCodeword_resCell (cw : Codeword) (s : State) : (takeCodeword cw s).resCell = s.resCell := rfl
@[simp] theorem takeCodeword_resSyms (cw : Codeword) (s : State) : (takeCodeword cw s).resSyms = s.resSyms := rfl
@[simp] theorem takeCodeword_out (cw : Codeword) (s : State) : (takeCodeword cw s).out = s.out := rfl
@[simp] theorem takeCodeword_acc (cw : Codeword) (s : State) : (takeCodeword cw s).acc = s.acc := rfl
@[simp] theorem takeCodeword_nb (cw : Codeword) (s : State) : (takeCodeword cw s).nb = s.nb := rfl
@[simp] theorem takeCodeword_pos (cw : Codeword) (s : State) : (takeCodeword cw s).pos = s.pos + cw.length := rfl
@[simp] theorem takeCodeword_unpackOut (cw : Codeword) (s : State) :
    (takeCodeword cw s).unpackOut = s.unpackOut ++ [symbolOf cw] := rfl
@[simp] theorem takeCodeword_unpacking (cw : Codeword) (s : State) : (takeCodeword cw s).unpacking = s.unpacking := rfl
@[simp] theorem takeCodeword_unpackCell (cw : Codeword) (s : State) :
    (takeCodeword cw s).unpackCell = s.unpackCell := rfl
@[simp] theorem takeCodeword_view (cw : Codeword) (s : State) : (takeCodeword cw s).view = s.view := rfl
@[simp] theorem takeCodeword_store (cw : Codeword) (s : State) : (takeCodeword cw s).store = s.store := rfl
@[simp] theorem takeCodeword_host (cw : Codeword) (s : State) : (takeCodeword cw s).host = s.host := rfl
@[simp] theorem takeCodeword_freeCtr (cw : Codeword) (s : State) : (takeCodeword cw s).freeCtr = s.freeCtr := rfl

@[simp] theorem endUnpack_defcnt (s : State) : (endUnpack s).defcnt = s.defcnt := rfl
@[simp] theorem endUnpack_phase (s : State) : (endUnpack s).phase = s.phase := rfl
@[simp] theorem endUnpack_blk (s : State) : (endUnpack s).blk = s.blk := rfl
@[simp] theorem endUnpack_idx (s : State) : (endUnpack s).idx = s.idx := rfl
@[simp] theorem endUnpack_status (s : State) : (endUnpack s).status = okStatus := rfl
@[simp] theorem endUnpack_resCell (s : State) : (endUnpack s).resCell = s.resCell := rfl
@[simp] theorem endUnpack_resSyms (s : State) : (endUnpack s).resSyms = s.unpackOut := rfl
@[simp] theorem endUnpack_out (s : State) : (endUnpack s).out = s.out := rfl
@[simp] theorem endUnpack_acc (s : State) : (endUnpack s).acc = Config.freeAcc s.freeCtr := rfl
@[simp] theorem endUnpack_nb (s : State) : (endUnpack s).nb = (Config.freeNb s.freeCtr).val := rfl
@[simp] theorem endUnpack_pos (s : State) : (endUnpack s).pos = (Config.freePos s.freeCtr).val := rfl
@[simp] theorem endUnpack_unpackOut (s : State) : (endUnpack s).unpackOut = Config.freeUnpackOut s.freeCtr := rfl
@[simp] theorem endUnpack_unpacking (s : State) : (endUnpack s).unpacking = false := rfl
@[simp] theorem endUnpack_unpackCell (s : State) : (endUnpack s).unpackCell = s.unpackCell := rfl
@[simp] theorem endUnpack_view (s : State) : (endUnpack s).view = s.view := rfl
@[simp] theorem endUnpack_store (s : State) : (endUnpack s).store = s.store := rfl
@[simp] theorem endUnpack_host (s : State) : (endUnpack s).host = s.host := rfl
@[simp] theorem endUnpack_freeCtr (s : State) : (endUnpack s).freeCtr = s.freeCtr + 1 := rfl

@[simp] theorem enter_defcnt (view : View) (n : Nat) (s : State) : (enter view n s).defcnt = 0#9 := rfl
@[simp] theorem enter_phase (view : View) (n : Nat) (s : State) : (enter view n s).phase = .running := rfl
@[simp] theorem enter_blk (view : View) (n : Nat) (s : State) : (enter view n s).blk = n := rfl
@[simp] theorem enter_idx (view : View) (n : Nat) (s : State) : (enter view n s).idx = 0#9 := rfl
@[simp] theorem enter_status (view : View) (n : Nat) (s : State) : (enter view n s).status = s.status := rfl
@[simp] theorem enter_resCell (view : View) (n : Nat) (s : State) : (enter view n s).resCell = s.resCell := rfl
@[simp] theorem enter_resSyms (view : View) (n : Nat) (s : State) : (enter view n s).resSyms = s.resSyms := rfl
@[simp] theorem enter_out (view : View) (n : Nat) (s : State) : (enter view n s).out = [] := rfl
@[simp] theorem enter_acc (view : View) (n : Nat) (s : State) : (enter view n s).acc = s.acc := rfl
@[simp] theorem enter_nb (view : View) (n : Nat) (s : State) : (enter view n s).nb = s.nb := rfl
@[simp] theorem enter_pos (view : View) (n : Nat) (s : State) : (enter view n s).pos = s.pos := rfl
@[simp] theorem enter_unpackOut (view : View) (n : Nat) (s : State) : (enter view n s).unpackOut = s.unpackOut := rfl
@[simp] theorem enter_unpacking (view : View) (n : Nat) (s : State) : (enter view n s).unpacking = s.unpacking := rfl
@[simp] theorem enter_unpackCell (view : View) (n : Nat) (s : State) : (enter view n s).unpackCell = s.unpackCell := rfl
@[simp] theorem enter_view (view : View) (n : Nat) (s : State) : (enter view n s).view = view := rfl
@[simp] theorem enter_store (view : View) (n : Nat) (s : State) : (enter view n s).store = s.store := rfl
@[simp] theorem enter_host (view : View) (n : Nat) (s : State) : (enter view n s).host = s.host := rfl
@[simp] theorem enter_freeCtr (view : View) (n : Nat) (s : State) : (enter view n s).freeCtr = s.freeCtr := rfl

@[simp] theorem endRun_defcnt (r : EndKind) (s : State) : (endRun r s).defcnt = s.defcnt := rfl
@[simp] theorem endRun_phase (r : EndKind) (s : State) : (endRun r s).phase = .idle := rfl
@[simp] theorem endRun_blk (r : EndKind) (s : State) : (endRun r s).blk = s.blk := rfl
@[simp] theorem endRun_idx (r : EndKind) (s : State) : (endRun r s).idx = s.idx := rfl
@[simp] theorem endRun_status (r : EndKind) (s : State) : (endRun r s).status = runStatus r := rfl
@[simp] theorem endRun_resCell (r : EndKind) (s : State) : (endRun r s).resCell = s.resCell := rfl
@[simp] theorem endRun_resSyms (r : EndKind) (s : State) : (endRun r s).resSyms = s.resSyms := rfl
@[simp] theorem endRun_out (r : EndKind) (s : State) : (endRun r s).out = s.out := rfl
@[simp] theorem endRun_acc (r : EndKind) (s : State) : (endRun r s).acc = s.acc := rfl
@[simp] theorem endRun_nb (r : EndKind) (s : State) : (endRun r s).nb = s.nb := rfl
@[simp] theorem endRun_pos (r : EndKind) (s : State) : (endRun r s).pos = s.pos := rfl
@[simp] theorem endRun_unpackOut (r : EndKind) (s : State) : (endRun r s).unpackOut = s.unpackOut := rfl
@[simp] theorem endRun_unpacking (r : EndKind) (s : State) : (endRun r s).unpacking = s.unpacking := rfl
@[simp] theorem endRun_unpackCell (r : EndKind) (s : State) : (endRun r s).unpackCell = s.unpackCell := rfl
@[simp] theorem endRun_view (r : EndKind) (s : State) : (endRun r s).view = s.view := rfl
@[simp] theorem endRun_store (r : EndKind) (s : State) : (endRun r s).store = s.store := rfl
@[simp] theorem endRun_host (r : EndKind) (s : State) : (endRun r s).host = s.host := rfl
@[simp] theorem endRun_freeCtr (r : EndKind) (s : State) : (endRun r s).freeCtr = s.freeCtr := rfl

@[simp] theorem emit_defcnt (evs : List Event) (s : State) : (emit evs s).defcnt = s.defcnt := rfl
@[simp] theorem emit_phase (evs : List Event) (s : State) : (emit evs s).phase = s.phase := rfl
@[simp] theorem emit_blk (evs : List Event) (s : State) : (emit evs s).blk = s.blk := rfl
@[simp] theorem emit_idx (evs : List Event) (s : State) : (emit evs s).idx = s.idx := rfl
@[simp] theorem emit_status (evs : List Event) (s : State) : (emit evs s).status = s.status := rfl
@[simp] theorem emit_resCell (evs : List Event) (s : State) : (emit evs s).resCell = s.resCell := rfl
@[simp] theorem emit_resSyms (evs : List Event) (s : State) : (emit evs s).resSyms = s.resSyms := rfl
@[simp] theorem emit_out (evs : List Event) (s : State) : (emit evs s).out = s.out ++ evs := rfl
@[simp] theorem emit_acc (evs : List Event) (s : State) : (emit evs s).acc = s.acc := rfl
@[simp] theorem emit_nb (evs : List Event) (s : State) : (emit evs s).nb = s.nb := rfl
@[simp] theorem emit_pos (evs : List Event) (s : State) : (emit evs s).pos = s.pos := rfl
@[simp] theorem emit_unpackOut (evs : List Event) (s : State) : (emit evs s).unpackOut = s.unpackOut := rfl
@[simp] theorem emit_unpacking (evs : List Event) (s : State) : (emit evs s).unpacking = s.unpacking := rfl
@[simp] theorem emit_unpackCell (evs : List Event) (s : State) : (emit evs s).unpackCell = s.unpackCell := rfl
@[simp] theorem emit_view (evs : List Event) (s : State) : (emit evs s).view = s.view := rfl
@[simp] theorem emit_store (evs : List Event) (s : State) : (emit evs s).store = s.store := rfl
@[simp] theorem emit_host (evs : List Event) (s : State) : (emit evs s).host = s.host := rfl
@[simp] theorem emit_freeCtr (evs : List Event) (s : State) : (emit evs s).freeCtr = s.freeCtr := rfl

@[simp] theorem advanceIdx_defcnt (s : State) : (advanceIdx s).defcnt = s.defcnt := rfl
@[simp] theorem advanceIdx_phase (s : State) : (advanceIdx s).phase = s.phase := rfl
@[simp] theorem advanceIdx_blk (s : State) : (advanceIdx s).blk = s.blk := rfl
@[simp] theorem advanceIdx_idx (s : State) : (advanceIdx s).idx = s.idx + 1#9 := rfl
@[simp] theorem advanceIdx_status (s : State) : (advanceIdx s).status = s.status := rfl
@[simp] theorem advanceIdx_resCell (s : State) : (advanceIdx s).resCell = s.resCell := rfl
@[simp] theorem advanceIdx_resSyms (s : State) : (advanceIdx s).resSyms = s.resSyms := rfl
@[simp] theorem advanceIdx_out (s : State) : (advanceIdx s).out = s.out := rfl
@[simp] theorem advanceIdx_acc (s : State) : (advanceIdx s).acc = s.acc := rfl
@[simp] theorem advanceIdx_nb (s : State) : (advanceIdx s).nb = s.nb := rfl
@[simp] theorem advanceIdx_pos (s : State) : (advanceIdx s).pos = s.pos := rfl
@[simp] theorem advanceIdx_unpackOut (s : State) : (advanceIdx s).unpackOut = s.unpackOut := rfl
@[simp] theorem advanceIdx_unpacking (s : State) : (advanceIdx s).unpacking = s.unpacking := rfl
@[simp] theorem advanceIdx_unpackCell (s : State) : (advanceIdx s).unpackCell = s.unpackCell := rfl
@[simp] theorem advanceIdx_view (s : State) : (advanceIdx s).view = s.view := rfl
@[simp] theorem advanceIdx_store (s : State) : (advanceIdx s).store = s.store := rfl
@[simp] theorem advanceIdx_host (s : State) : (advanceIdx s).host = s.host := rfl
@[simp] theorem advanceIdx_freeCtr (s : State) : (advanceIdx s).freeCtr = s.freeCtr := rfl

@[simp] theorem textArm_defcnt (k : Option ColourClass) (c : Cell) (s : State) :
    (textArm k c s).defcnt = s.defcnt := rfl
@[simp] theorem textArm_phase (k : Option ColourClass) (c : Cell) (s : State) : (textArm k c s).phase = s.phase := rfl
@[simp] theorem textArm_blk (k : Option ColourClass) (c : Cell) (s : State) : (textArm k c s).blk = s.blk := rfl
@[simp] theorem textArm_idx (k : Option ColourClass) (c : Cell) (s : State) : (textArm k c s).idx = s.idx := rfl
@[simp] theorem textArm_status (k : Option ColourClass) (c : Cell) (s : State) :
    (textArm k c s).status = s.status := rfl
@[simp] theorem textArm_resCell (k : Option ColourClass) (c : Cell) (s : State) :
    (textArm k c s).resCell = s.resCell := rfl
@[simp] theorem textArm_resSyms (k : Option ColourClass) (c : Cell) (s : State) :
    (textArm k c s).resSyms = s.resSyms := rfl
@[simp] theorem textArm_out (k : Option ColourClass) (c : Cell) (s : State) :
    (textArm k c s).out = s.out ++ (colourEvents k ++ [.text (unpack c), .sep]) := rfl
@[simp] theorem textArm_acc (k : Option ColourClass) (c : Cell) (s : State) : (textArm k c s).acc = s.acc := rfl
@[simp] theorem textArm_nb (k : Option ColourClass) (c : Cell) (s : State) : (textArm k c s).nb = s.nb := rfl
@[simp] theorem textArm_pos (k : Option ColourClass) (c : Cell) (s : State) : (textArm k c s).pos = s.pos := rfl
@[simp] theorem textArm_unpackOut (k : Option ColourClass) (c : Cell) (s : State) :
    (textArm k c s).unpackOut = s.unpackOut := rfl
@[simp] theorem textArm_unpacking (k : Option ColourClass) (c : Cell) (s : State) :
    (textArm k c s).unpacking = s.unpacking := rfl
@[simp] theorem textArm_unpackCell (k : Option ColourClass) (c : Cell) (s : State) :
    (textArm k c s).unpackCell = s.unpackCell := rfl
@[simp] theorem textArm_view (k : Option ColourClass) (c : Cell) (s : State) : (textArm k c s).view = s.view := rfl
@[simp] theorem textArm_store (k : Option ColourClass) (c : Cell) (s : State) : (textArm k c s).store = s.store := rfl
@[simp] theorem textArm_host (k : Option ColourClass) (c : Cell) (s : State) : (textArm k c s).host = s.host := rfl
@[simp] theorem textArm_freeCtr (k : Option ColourClass) (c : Cell) (s : State) :
    (textArm k c s).freeCtr = s.freeCtr := rfl

@[simp] theorem numArm_defcnt (k : ColourClass) (c : Cell) (s : State) : (numArm k c s).defcnt = s.defcnt := rfl
@[simp] theorem numArm_phase (k : ColourClass) (c : Cell) (s : State) : (numArm k c s).phase = s.phase := rfl
@[simp] theorem numArm_blk (k : ColourClass) (c : Cell) (s : State) : (numArm k c s).blk = s.blk := rfl
@[simp] theorem numArm_idx (k : ColourClass) (c : Cell) (s : State) : (numArm k c s).idx = s.idx := rfl
@[simp] theorem numArm_status (k : ColourClass) (c : Cell) (s : State) : (numArm k c s).status = s.status := rfl
@[simp] theorem numArm_resCell (k : ColourClass) (c : Cell) (s : State) : (numArm k c s).resCell = s.resCell := rfl
@[simp] theorem numArm_resSyms (k : ColourClass) (c : Cell) (s : State) : (numArm k c s).resSyms = s.resSyms := rfl
@[simp] theorem numArm_out (k : ColourClass) (c : Cell) (s : State) :
    (numArm k c s).out = s.out ++ [.color k, .num (cellValue c), .sep] := rfl
@[simp] theorem numArm_acc (k : ColourClass) (c : Cell) (s : State) : (numArm k c s).acc = s.acc := rfl
@[simp] theorem numArm_nb (k : ColourClass) (c : Cell) (s : State) : (numArm k c s).nb = s.nb := rfl
@[simp] theorem numArm_pos (k : ColourClass) (c : Cell) (s : State) : (numArm k c s).pos = s.pos := rfl
@[simp] theorem numArm_unpackOut (k : ColourClass) (c : Cell) (s : State) :
    (numArm k c s).unpackOut = s.unpackOut := rfl
@[simp] theorem numArm_unpacking (k : ColourClass) (c : Cell) (s : State) :
    (numArm k c s).unpacking = s.unpacking := rfl
@[simp] theorem numArm_unpackCell (k : ColourClass) (c : Cell) (s : State) :
    (numArm k c s).unpackCell = s.unpackCell := rfl
@[simp] theorem numArm_view (k : ColourClass) (c : Cell) (s : State) : (numArm k c s).view = s.view := rfl
@[simp] theorem numArm_store (k : ColourClass) (c : Cell) (s : State) : (numArm k c s).store = s.store := rfl
@[simp] theorem numArm_host (k : ColourClass) (c : Cell) (s : State) : (numArm k c s).host = s.host := rfl
@[simp] theorem numArm_freeCtr (k : ColourClass) (c : Cell) (s : State) : (numArm k c s).freeCtr = s.freeCtr := rfl

@[simp] theorem definitionArm_defcnt (c : Cell) (s : State) : (definitionArm c s).defcnt = s.defcnt + 1#9 := rfl
@[simp] theorem definitionArm_phase (c : Cell) (s : State) : (definitionArm c s).phase = s.phase := rfl
@[simp] theorem definitionArm_blk (c : Cell) (s : State) : (definitionArm c s).blk = s.blk := rfl
@[simp] theorem definitionArm_idx (c : Cell) (s : State) : (definitionArm c s).idx = s.idx := rfl
@[simp] theorem definitionArm_status (c : Cell) (s : State) : (definitionArm c s).status = s.status := rfl
@[simp] theorem definitionArm_resCell (c : Cell) (s : State) : (definitionArm c s).resCell = s.resCell := rfl
@[simp] theorem definitionArm_resSyms (c : Cell) (s : State) : (definitionArm c s).resSyms = s.resSyms := rfl
@[simp] theorem definitionArm_out (c : Cell) (s : State) :
    (definitionArm c s).out = s.out ++ ([.color .b] ++ breakEvents s ++ [.text (unpack c), .sep]) := rfl
@[simp] theorem definitionArm_acc (c : Cell) (s : State) : (definitionArm c s).acc = s.acc := rfl
@[simp] theorem definitionArm_nb (c : Cell) (s : State) : (definitionArm c s).nb = s.nb := rfl
@[simp] theorem definitionArm_pos (c : Cell) (s : State) : (definitionArm c s).pos = s.pos := rfl
@[simp] theorem definitionArm_unpackOut (c : Cell) (s : State) : (definitionArm c s).unpackOut = s.unpackOut := rfl
@[simp] theorem definitionArm_unpacking (c : Cell) (s : State) : (definitionArm c s).unpacking = s.unpacking := rfl
@[simp] theorem definitionArm_unpackCell (c : Cell) (s : State) : (definitionArm c s).unpackCell = s.unpackCell := rfl
@[simp] theorem definitionArm_view (c : Cell) (s : State) : (definitionArm c s).view = s.view := rfl
@[simp] theorem definitionArm_store (c : Cell) (s : State) : (definitionArm c s).store = s.store := rfl
@[simp] theorem definitionArm_host (c : Cell) (s : State) : (definitionArm c s).host = s.host := rfl
@[simp] theorem definitionArm_freeCtr (c : Cell) (s : State) : (definitionArm c s).freeCtr = s.freeCtr := rfl

@[simp] theorem powerOn_defcnt (s : State) : (powerOn s).defcnt = 0#9 := rfl
@[simp] theorem powerOn_phase (s : State) : (powerOn s).phase = .idle := rfl
@[simp] theorem powerOn_blk (s : State) : (powerOn s).blk = 0 := rfl
@[simp] theorem powerOn_idx (s : State) : (powerOn s).idx = 0#9 := rfl
@[simp] theorem powerOn_status (s : State) : (powerOn s).status = 0x00#8 := rfl
@[simp] theorem powerOn_resCell (s : State) : (powerOn s).resCell = 0#32 := rfl
@[simp] theorem powerOn_resSyms (s : State) : (powerOn s).resSyms = [] := rfl
@[simp] theorem powerOn_out (s : State) : (powerOn s).out = [] := rfl
@[simp] theorem powerOn_acc (s : State) : (powerOn s).acc = Config.freeAcc s.freeCtr := rfl
@[simp] theorem powerOn_nb (s : State) : (powerOn s).nb = (Config.freeNb s.freeCtr).val := rfl
@[simp] theorem powerOn_pos (s : State) : (powerOn s).pos = (Config.freePos s.freeCtr).val := rfl
@[simp] theorem powerOn_unpackOut (s : State) : (powerOn s).unpackOut = Config.freeUnpackOut s.freeCtr := rfl
@[simp] theorem powerOn_unpacking (s : State) : (powerOn s).unpacking = false := rfl
@[simp] theorem powerOn_unpackCell (s : State) : (powerOn s).unpackCell = 0#32 := rfl
@[simp] theorem powerOn_view (s : State) : (powerOn s).view = { base := 0, len := 0 } := rfl
@[simp] theorem powerOn_store (s : State) : (powerOn s).store = s.store := rfl
@[simp] theorem powerOn_host (s : State) : (powerOn s).host = s.host := rfl
@[simp] theorem powerOn_freeCtr (s : State) : (powerOn s).freeCtr = s.freeCtr + 1 := rfl

end Sys2Proof.Machine
end

