-- ==== Sys2Proof/Laws/Ops.lean ====
section
/-! SUPPORT. What each shared operation can do, said once; what one step can do, said once (`step_cases`). -/

namespace Sys2Proof.Machine

/-! ### The Cell Store -/

theorem risesPast_write (m : Memory) (low a : Nat) (c : Cell) (hm : Memory.risesPast low m = true) (ha : low < a) :
    Memory.risesPast low (Memory.write m a c) = true := by
  induction m generalizing low with
  | nil => simpa [Memory.write, Memory.risesPast] using ha
  | cons e rest ih =>
    obtain ⟨b, d⟩ := e
    simp only [Memory.risesPast, Bool.and_eq_true, decide_eq_true_eq] at hm
    simp only [Memory.write]
    split
    · simp [Memory.risesPast, *]
    · split
      · subst a; simp [Memory.risesPast, hm]
      · simp only [Memory.risesPast, Bool.and_eq_true, decide_eq_true_eq]
        exact ⟨hm.1, ih b hm.2 (by omega)⟩

/-- Every write keeps the store's canonical form. -/
theorem write_wf (m : Memory) (a : Nat) (c : Cell) (hm : m.wf = true) : (m.write a c).wf = true := by
  cases m with
  | nil => rfl
  | cons e rest =>
    obtain ⟨b, d⟩ := e
    simp only [Memory.wf] at hm
    simp only [Memory.write]
    split
    · simp [Memory.wf, Memory.risesPast, *]
    · split
      · subst a; simpa [Memory.wf] using hm
      · simp only [Memory.wf]
        exact risesPast_write rest b a c hm (by omega)

/-- The store after reset is canonical. -/
theorem reset_store_wf : State.reset.store.wf = true := rfl

/-- A read succeeds exactly inside the view on an element the store has. -/
theorem memRead_ok (s : State) (a : Nat) (c : Cell) :
    memRead s a = .ok c ↔ a < s.view.len ∧ s.store.read (s.view.base + a) = some c := by
  unfold memRead
  split
  · simp; omega
  · split <;> simp_all

/-- A read fails only outside the view, or on an index the store does not have. -/
theorem memRead_error (s : State) (a : Nat) (f : Fault) (h : memRead s a = .error f) :
    (f = .outsideView a ∧ s.view.len ≤ a) ∨
    (f = .outsideStore (s.view.base + a) ∧ s.store.read (s.view.base + a) = none) := by
  unfold memRead at h
  split at h
  · simp_all
  · split at h <;> simp_all

/-- The range check fails exactly when the window's end is past the view's. -/
theorem windowOutside_iff (view : View) (n : Nat) : windowOutside view n = true ↔ view.len < 256 * n + 256 := by
  rw [windowOutside, decide_eq_true_iff]
  rfl

/-! ### The Letter Table -/

/-- A symbol is found only where the table has it. -/
theorem findSymbol_some {α : Type} [DecidableEq α] (table : List α) (ch : α) (first k : Nat)
    (h : findSymbol ch table first = some k) : first ≤ k ∧ table[k - first]? = some ch := by
  induction table generalizing first with
  | nil => simp [findSymbol] at h
  | cons head rest ih =>
    simp only [findSymbol] at h
    split at h
    · cases h; simp [*]
    · obtain ⟨hle, hget⟩ := ih _ h
      refine ⟨by omega, ?_⟩
      rw [show k - first = k - (first + 1) + 1 by omega]
      simpa using hget

/-- A symbol that is not found is not in the table. -/
theorem findSymbol_none {α : Type} [DecidableEq α] (table : List α) (ch : α) (first : Nat)
    (h : findSymbol ch table first = none) : ch ∉ table := by
  induction table generalizing first with
  | nil => simp
  | cons head rest ih =>
    simp only [findSymbol] at h
    split at h
    · simp at h
    · rename_i hne
      simp only [List.mem_cons, not_or]
      exact ⟨fun heq => hne heq.symm, ih _ h⟩

/-! ### Fields of a cell -/

@[simp] theorem textCell_fields (c : Cell) : textCell (cellPayload c) (cellTag c) = c := by
  apply BitVec.eq_of_getLsbD_eq
  intro i hi
  simp only [textCell, cellPayload, cellTag, BitVec.getLsbD_append, BitVec.getLsbD_extractLsb']
  by_cases h : i < 4
  · simp [h]
  · have : 4 + (i - 4) = i := by omega
    simp [h, this]; omega

@[simp] theorem numCell_fields (c : Cell) : numCell (cellValue c) (cellBit4 c) (cellTag c) = c := by
  apply BitVec.eq_of_getLsbD_eq
  intro i hi
  simp only [numCell, cellValue, cellBit4, cellTag, BitVec.getLsbD_append, BitVec.getLsbD_extractLsb']
  split
  · simp; omega
  · split
    · have : i = 4 := by omega
      subst this; simp
    · have : 5 + (i - 4 - 1) = i := by omega
      simp [this]; omega

@[simp] theorem cellTag_textCell (payload : BitVec 28) (tag : BitVec 4) : cellTag (textCell payload tag) = tag := by
  apply BitVec.eq_of_getLsbD_eq
  intro i hi
  simp only [cellTag, textCell, BitVec.getLsbD_extractLsb', BitVec.getLsbD_append]
  simp [hi]

@[simp] theorem cellPayload_textCell (payload : BitVec 28) (tag : BitVec 4) :
    cellPayload (textCell payload tag) = payload := by
  apply BitVec.eq_of_getLsbD_eq
  intro i hi
  simp only [cellPayload, textCell, BitVec.getLsbD_extractLsb', BitVec.getLsbD_append]
  simp [hi]

@[simp] theorem cellTag_numCell (value : BitVec 27) (bit4 : BitVec 1) (tag : BitVec 4) :
    cellTag (numCell value bit4 tag) = tag := by
  apply BitVec.eq_of_getLsbD_eq
  intro i hi
  simp only [cellTag, numCell, BitVec.getLsbD_extractLsb', BitVec.getLsbD_append]
  simp [hi]

@[simp] theorem cellValue_numCell (value : BitVec 27) (bit4 : BitVec 1) (tag : BitVec 4) :
    cellValue (numCell value bit4 tag) = value := by
  apply BitVec.eq_of_getLsbD_eq
  intro i hi
  simp only [cellValue, numCell, BitVec.getLsbD_extractLsb', BitVec.getLsbD_append]
  have h1 : ¬ 5 + i < 4 := by omega
  have h2 : ¬ 5 + i - 4 < 1 := by omega
  have h3 : 5 + i - 4 - 1 = i := by omega
  simp [hi, h1, h2, h3]

@[simp] theorem cellBit4_numCell (value : BitVec 27) (bit4 : BitVec 1) (tag : BitVec 4) :
    cellBit4 (numCell value bit4 tag) = bit4 := by
  apply BitVec.eq_of_getLsbD_eq
  intro i hi
  simp only [cellBit4, numCell, BitVec.getLsbD_extractLsb', BitVec.getLsbD_append]
  simp [hi]

/-! ### The end of a PACK -/

/-- What the end of a PACK does: an error of the loop is raised, a zero accumulator is EmptyWord, and else RES_CELL and STATUS
are written. -/
theorem packResult_cases (result : Except (ErrorKind × Nat) PackRegs) (s : State) :
    (∃ e j, result = .error (e, j) ∧ packResult result s = raise e j s) ∨
    (∃ r, result = .ok r ∧ r.acc = 0#28 ∧
      packResult result s = raise .emptyWord 0 { s with acc := r.acc, nb := r.nb }) ∨
    (∃ r, result = .ok r ∧ r.acc ≠ 0#28 ∧
      packResult result s =
        { s with acc := r.acc, nb := r.nb, resCell := packedCell r.acc r.nb, status := okStatus }) := by
  rcases result with ⟨e, j⟩ | r
  · exact .inl ⟨e, j, rfl, rfl⟩
  · refine .inr ?_
    by_cases h : r.acc = 0#28
    · exact .inl ⟨r, rfl, h, by simp [packResult, finishPack, h]⟩
    · exact .inr ⟨r, rfl, h, by simp [packResult, finishPack, h]⟩

/-- PACK's loop fails only with UnknownSymbol or WordTooLong, at a position of its input. -/
theorem packLoop_error {α : Type} (look : α → Option Position) (w : List α) (j : Nat) (r : PackRegs) (e : ErrorKind) (k : Nat)
    (h : packLoop look w j r = .error (e, k)) :
    (e = .unknownSymbol ∨ e = .wordTooLong) ∧ j ≤ k ∧ k < j + w.length := by
  induction w generalizing j r with
  | nil => simp [packLoop] at h
  | cons ch rest ih =>
    simp only [packLoop] at h
    split at h
    · simp only [Except.error.injEq, Prod.mk.injEq] at h
      obtain ⟨rfl, rfl⟩ := h
      exact ⟨.inl rfl, by omega, by simp⟩
    · split at h
      · simp only [Except.error.injEq, Prod.mk.injEq] at h
        obtain ⟨rfl, rfl⟩ := h
        exact ⟨.inr rfl, by omega, by simp⟩
      · obtain ⟨he, hlo, hhi⟩ := ih _ _ h
        exact ⟨he, by omega, by simp only [List.length_cons]; omega⟩

/-! ### One cell and one codeword -/

/-- What a nonzero cell does, by its tag: nothing (0), the definition arm (3), or a text or numeric arm. -/
def ArmEffect (c : Cell) (s t : State) : Prop :=
  (cellTag c = 0#4 ∧ t = advanceIdx s) ∨
  (cellTag c = 3#4 ∧ t = advanceIdx (definitionArm c s)) ∨
  (cellTag c ≠ 0#4 ∧ cellTag c ≠ 3#4 ∧ ∃ k, t = advanceIdx (textArm k c s)) ∨
  (cellTag c ≠ 0#4 ∧ cellTag c ≠ 3#4 ∧ ∃ k, t = advanceIdx (numArm k c s))

theorem exec_decodeCell_zero (s : State) : exec (decodeCell 0#32) s = .next (endRun .sentinel s) := rfl

/-- A nonzero cell's instruction always answers a next state, by its arm. -/
theorem exec_decodeCell_nonzero (c : Cell) (s : State) (hc : c ≠ 0#32) :
    ∃ t, exec (decodeCell c) s = .next t ∧ ArmEffect c s t := by
  have htext := textCell_fields c
  have hnum := numCell_fields c
  have htags : ∀ tag : BitVec 4, tag = 0#4 ∨ tag = 1#4 ∨ tag = 2#4 ∨ tag = 3#4 ∨ tag = 4#4 ∨ tag = 5#4 ∨ tag = 6#4 ∨
      tag = 7#4 ∨ tag = 8#4 ∨ tag = 9#4 ∨ tag = 10#4 ∨ tag = 11#4 ∨ tag = 12#4 ∨ tag = 13#4 ∨ tag = 14#4 ∨
      tag = 15#4 := by decide
  simp only [decodeCell, hc, if_false, decodeTagged, ArmEffect]
  rcases htags (cellTag c) with h | h | h | h | h | h | h | h | h | h | h | h | h | h | h | h <;>
    rw [h] at htext hnum ⊢ <;>
    first
    | exact ⟨_, rfl, .inl ⟨rfl, rfl⟩⟩
    | exact ⟨_, rfl, .inr (.inl ⟨rfl, congrArg (fun x => advanceIdx (definitionArm x s)) htext⟩)⟩
    | exact ⟨_, rfl, .inr (.inr (.inl ⟨by decide, by decide, _, congrArg (fun x => advanceIdx (textArm _ x s)) htext⟩))⟩
    | exact ⟨_, rfl, .inr (.inr (.inr ⟨by decide, by decide, _, congrArg (fun x => advanceIdx (numArm _ x s)) hnum⟩))⟩

/-- The meaning UNPACK's loop runs for a codeword takes that codeword. -/
theorem runCodeword_eq (cw : Codeword) (s : State) : runCodeword (symbolOf cw) s = .next (takeCodeword cw s) := by
  cases cw with
  | cw4 v => revert v; intro ⟨⟨n, hn⟩⟩; interval_cases n <;> rfl
  | cw5 v => revert v; intro ⟨⟨n, hn⟩⟩; interval_cases n <;> rfl
  | cw7 v => revert v; intro ⟨⟨n, hn⟩⟩; interval_cases n <;> rfl

/-- What UNPACK's loop runs at a position is the instruction of that position. -/
theorem exec_symInstr (p : Position) (s : State) : exec (symInstr p) s = runCodeword p s := by
  obtain ⟨n, hn⟩ := p
  interval_cases n <;> rfl

/-- A codeword's instruction takes that codeword. -/
theorem exec_decodeCodeword (window : BitVec 7) (s : State) :
    exec (decodeCodeword window) s = .next (takeCodeword (classify window) s) := by
  rw [decodeCodeword, exec_symInstr, runCodeword_eq]

/-- The unconsumed stream after a codeword is the stream shifted by its length (41_word_codec.md R110, register form). -/
theorem streamFrom_add (c : Cell) (pos len : Nat) : streamFrom c (pos + len) = streamFrom c pos <<< len :=
  BitVec.shiftLeft_add _ _ _

@[simp] theorem andThen_next (s : State) (rest : State → Host.Outcome State Fault Refusal) :
    andThen (.next s) rest = rest s := rfl

/-- What UNPACK's loop does, said once: it always answers a next state, in which the symbols of the unconsumed stream are
appended to the output, POS has moved, and nothing else has changed. -/
theorem unpackLoop_eq (fuel : Nat) (s : State) :
    ∃ pos, unpackLoop fuel s =
      .next { s with unpackOut := s.unpackOut ++ unpackFrom fuel (streamFrom s.unpackCell s.pos), pos := pos } := by
  induction fuel generalizing s with
  | zero => exact ⟨s.pos, by simp [unpackLoop, unpackFrom]⟩
  | succ fuel ih =>
    by_cases hz : streamFrom s.unpackCell s.pos = 0#32
    · exact ⟨s.pos, by simp [unpackLoop, unpackFrom, hz]⟩
    · obtain ⟨pos, hpos⟩ := ih (takeCodeword (classify (nextBits (streamFrom s.unpackCell s.pos))) s)
      refine ⟨pos, ?_⟩
      simp only [unpackLoop, unpackFrom, hz, if_false, runCodeword_eq, andThen_next, hpos]
      simp [streamFrom_add, takeCodeword]

/-! ### One step -/

/-- With an UNPACK in progress a step is one pass of its loop. -/
theorem step_of_unpacking (s : State) (hu : s.unpacking = true) : step s = stepUnpack s := by
  simp [step, nextStep, hu]

/-- With a RUN_BLOCK in progress a step is one STEP(). -/
theorem step_of_running (s : State) (hu : s.unpacking = false) (hp : s.phase = .running) : step s = stepBlock s := by
  simp [step, nextStep, hu, hp]

/-- With no command in progress a step makes the host's next move. -/
theorem step_of_idle (s : State) (hu : s.unpacking = false) (hp : s.phase = .idle) : step s = stepIdle s := by
  simp [step, nextStep, hu, hp]

/-- No steps leave the state as it is. -/
theorem run_zero (s : State) : Sys2Proof.core.run 0 s = .next s := rfl

/-- A run of any machine goes on from the state its first step gives. -/
theorem host_run_succ (M : Host.Core) (k : Nat) (s t : M.State) (h : M.step s = .next t) :
    M.run (k + 1) s = M.run k t := by
  simp only [Host.Core.run, h]

/-- A run of the RPD goes on from the state its first step gives. -/
theorem run_succ_of_step (k : Nat) (s t : State) (h : step s = .next t) :
    Sys2Proof.core.run (k + 1) s = Sys2Proof.core.run k t :=
  host_run_succ Sys2Proof.core k s t h

/-- Everything a step that answers a next state can have done. -/
theorem step_cases (s t : State) (h : step s = .next t) :
    (s.unpacking = true ∧ streamFrom s.unpackCell s.pos = 0#32 ∧ t = endUnpack s) ∨
    (s.unpacking = true ∧ streamFrom s.unpackCell s.pos ≠ 0#32 ∧
      t = takeCodeword (classify (nextBits (streamFrom s.unpackCell s.pos))) s) ∨
    (s.unpacking = false ∧ s.phase = .running ∧ s.idx = 256#9 ∧ t = endRun .windowEnd s) ∨
    (s.unpacking = false ∧ s.phase = .running ∧ s.idx ≠ 256#9 ∧ memRead s (nextCellIndex s) = .ok 0#32 ∧
      t = endRun .sentinel s) ∨
    (s.unpacking = false ∧ s.phase = .running ∧ s.idx ≠ 256#9 ∧
      ∃ c, memRead s (nextCellIndex s) = .ok c ∧ c ≠ 0#32 ∧ ArmEffect c s t) ∨
    (s.unpacking = false ∧ s.phase = .idle ∧ s.host = [] ∧ t = s) ∨
    (s.unpacking = false ∧ s.phase = .idle ∧ ∃ r rest, s.host = .issue r :: rest ∧
      exec (decodeCommand r) { s with host := rest } = .next t) ∨
    (s.unpacking = false ∧ s.phase = .idle ∧ ∃ a c rest, s.host = .load a c :: rest ∧
      t = hostLoad a c { s with host := rest }) ∨
    (s.unpacking = false ∧ s.phase = .idle ∧ ∃ rest, s.host = .powerOn :: rest ∧
      t = powerOn { s with host := rest }) := by
  unfold step nextStep at h
  by_cases hu : s.unpacking = true
  · rw [if_pos hu] at h
    unfold stepUnpack at h
    by_cases hz : streamFrom s.unpackCell s.pos = 0#32
    · rw [if_pos hz] at h
      cases h
      exact .inl ⟨hu, hz, rfl⟩
    · rw [if_neg hz, exec_decodeCodeword] at h
      cases h
      exact .inr (.inl ⟨hu, hz, rfl⟩)
  · rw [if_neg hu] at h
    rw [Bool.not_eq_true] at hu
    refine .inr (.inr ?_)
    have hphase : s.phase = .running ∨ s.phase = .idle := by cases s.phase <;> simp
    rcases hphase with hp | hp
    · simp only [hp, stepBlock] at h
      by_cases hi : s.idx = 256#9
      · rw [if_pos hi] at h
        cases h
        exact .inl ⟨hu, hp, hi, rfl⟩
      · rw [if_neg hi] at h
        cases hr : memRead s (nextCellIndex s) with
        | error f => rw [hr] at h; cases h
        | ok c =>
          rw [hr] at h
          by_cases hc : c = 0#32
          · subst hc
            cases h
            exact .inr (.inl ⟨hu, hp, hi, rfl, rfl⟩)
          · obtain ⟨t', ht', harm⟩ := exec_decodeCell_nonzero c s hc
            simp only [ht'] at h
            cases h
            exact .inr (.inr (.inl ⟨hu, hp, hi, c, rfl, hc, harm⟩))
    · simp only [hp, stepIdle] at h
      refine .inr (.inr (.inr ?_))
      rcases hh : s.host with _ | ⟨mv, rest⟩
      · simp only [hh] at h
        cases h
        exact .inl ⟨hu, hp, rfl, rfl⟩
      · cases mv with
        | issue r =>
          simp only [hh] at h
          exact .inr (.inl ⟨hu, hp, r, rest, rfl, by rw [hp]; exact h⟩)
        | load a c =>
          simp only [hh] at h
          cases h
          exact .inr (.inr (.inl ⟨hu, hp, a, c, rest, rfl, by rw [hp]⟩))
        | powerOn =>
          simp only [hh] at h
          cases h
          exact .inr (.inr (.inr ⟨hu, hp, rest, rfl, by rw [hp]⟩))

end Sys2Proof.Machine
end

