-- ==== Sys2Proof/Laws/PerInstr.lean ====
section
/-! SUPPORT. One family of statements, one lemma for each instruction: the encoding of a well-formed instruction has the
width of its row of spec/opcode_table.json and the row's match value under the row's mask. -/

namespace Sys2Proof.Laws

/-- A row of spec/opcode_table.json: its width in bits, its mask and its match value. -/
structure TableRow where
  bits : Nat
  mask : Nat
  value : Nat

/-- The row of each instruction, as the table lists it. -/
def tableRow : Instr → TableRow
  | .pack _ => ⟨2, 0x3, 0x0⟩
  | .unpack _ => ⟨2, 0x3, 0x1⟩
  | .runBlock _ _ => ⟨2, 0x3, 0x2⟩
  | .reservedCmd => ⟨2, 0x3, 0x3⟩
  | .sentinel => ⟨32, 0xFFFFFFFF, 0x00000000⟩
  | .cellTag0Skip _ => ⟨32, 0xF, 0x0⟩
  | .cellTag1TextA _ => ⟨32, 0xF, 0x1⟩
  | .cellTag2NumA _ _ => ⟨32, 0xF, 0x2⟩
  | .cellTag3DefB _ => ⟨32, 0xF, 0x3⟩
  | .cellTag4TextC _ => ⟨32, 0xF, 0x4⟩
  | .cellTag5NumC5 _ _ => ⟨32, 0xF, 0x5⟩
  | .cellTag6NumC6 _ _ => ⟨32, 0xF, 0x6⟩
  | .cellTag7TextD _ => ⟨32, 0xF, 0x7⟩
  | .cellTag8NumA8 _ _ => ⟨32, 0xF, 0x8⟩
  | .cellTag9TextE9 _ => ⟨32, 0xF, 0x9⟩
  | .cellTag10TextE10 _ => ⟨32, 0xF, 0xA⟩
  | .cellTag11TextE11 _ => ⟨32, 0xF, 0xB⟩
  | .cellTag12TextF _ => ⟨32, 0xF, 0xC⟩
  | .cellTag13TextDefault13 _ => ⟨32, 0xF, 0xD⟩
  | .cellTag14TextDefault14 _ => ⟨32, 0xF, 0xE⟩
  | .cellTag15NumE _ _ => ⟨32, 0xF, 0xF⟩
  | .sym0Space => ⟨4, 0xF, 0x00⟩
  | .sym1R => ⟨4, 0xF, 0x01⟩
  | .sym2T => ⟨4, 0xF, 0x02⟩
  | .sym3O => ⟨4, 0xF, 0x03⟩
  | .sym4E => ⟨4, 0xF, 0x04⟩
  | .sym5A => ⟨4, 0xF, 0x05⟩
  | .sym6N => ⟨4, 0xF, 0x06⟩
  | .sym7I => ⟨4, 0xF, 0x07⟩
  | .sym8S => ⟨5, 0x1F, 0x10⟩
  | .sym9M => ⟨5, 0x1F, 0x11⟩
  | .sym10C => ⟨5, 0x1F, 0x12⟩
  | .sym11Y => ⟨5, 0x1F, 0x13⟩
  | .sym12L => ⟨5, 0x1F, 0x14⟩
  | .sym13G => ⟨5, 0x1F, 0x15⟩
  | .sym14F => ⟨5, 0x1F, 0x16⟩
  | .sym15W => ⟨5, 0x1F, 0x17⟩
  | .sym16D => ⟨7, 0x7F, 0x60⟩
  | .sym17V => ⟨7, 0x7F, 0x61⟩
  | .sym18P => ⟨7, 0x7F, 0x62⟩
  | .sym19B => ⟨7, 0x7F, 0x63⟩
  | .sym20H => ⟨7, 0x7F, 0x64⟩
  | .sym21X => ⟨7, 0x7F, 0x65⟩
  | .sym22U => ⟨7, 0x7F, 0x66⟩
  | .sym23Q => ⟨7, 0x7F, 0x67⟩
  | .sym24Digit0 => ⟨7, 0x7F, 0x68⟩
  | .sym25Digit1 => ⟨7, 0x7F, 0x69⟩
  | .sym26Digit2 => ⟨7, 0x7F, 0x6A⟩
  | .sym27Digit3 => ⟨7, 0x7F, 0x6B⟩
  | .sym28Digit4 => ⟨7, 0x7F, 0x6C⟩
  | .sym29Digit5 => ⟨7, 0x7F, 0x6D⟩
  | .sym30Digit6 => ⟨7, 0x7F, 0x6E⟩
  | .sym31Digit7 => ⟨7, 0x7F, 0x6F⟩
  | .sym32Digit8 => ⟨7, 0x7F, 0x70⟩
  | .sym33Digit9 => ⟨7, 0x7F, 0x71⟩
  | .sym34J => ⟨7, 0x7F, 0x72⟩
  | .sym35Minus => ⟨7, 0x7F, 0x73⟩
  | .sym36K => ⟨7, 0x7F, 0x74⟩
  | .sym37Dot => ⟨7, 0x7F, 0x75⟩
  | .sym38Z => ⟨7, 0x7F, 0x76⟩
  | .sym39Slash => ⟨7, 0x7F, 0x77⟩
  | .sym40Semicolon => ⟨7, 0x7F, 0x78⟩
  | .sym41Colon => ⟨7, 0x7F, 0x79⟩
  | .sym42Bang => ⟨7, 0x7F, 0x7A⟩
  | .sym43Plus => ⟨7, 0x7F, 0x7B⟩
  | .sym44At => ⟨7, 0x7F, 0x7C⟩
  | .sym45Star => ⟨7, 0x7F, 0x7D⟩
  | .sym46Comma => ⟨7, 0x7F, 0x7E⟩
  | .sym47Question => ⟨7, 0x7F, 0x7F⟩

/-- The width and the bits of an encoding, as the table numbers them. -/
def encodedBits : Encoding → Nat × Nat
  | .command r => (2, r.cmd.toNat)
  | .cell c => (32, c.toNat)
  | .codeword length value => (length, value)

/-- The encoding of `i`, if `i` is well formed, lies in its table row. -/
def FixedBits.Statement (i : Instr) : Prop :=
  i.WellFormed →
    (encodedBits (encode i)).1 = (tableRow i).bits ∧ (encodedBits (encode i)).2 &&& (tableRow i).mask = (tableRow i).value

theorem textCell_tag_bits (payload : BitVec 28) (tag : BitVec 4) : (textCell payload tag).toNat &&& 0xF = tag.toNat := by
  have h : (0xF : Nat) = 2 ^ 4 - 1 := rfl
  rw [h, Nat.and_two_pow_sub_one_eq_mod]
  simp only [textCell, BitVec.toNat_append, Nat.shiftLeft_eq]
  have := tag.isLt
  rw [Nat.or_comm, ← Nat.shiftLeft_eq, ← Nat.or_comm, ← Nat.shiftLeft_add_eq_or_of_lt this]
  omega

theorem numCell_tag_bits (value : BitVec 27) (bit4 : BitVec 1) (tag : BitVec 4) :
    (numCell value bit4 tag).toNat &&& 0xF = tag.toNat := by
  have h : (0xF : Nat) = 2 ^ 4 - 1 := rfl
  rw [h, Nat.and_two_pow_sub_one_eq_mod]
  have := tag.isLt
  simp only [numCell, BitVec.toNat_append, ← Nat.shiftLeft_add_eq_or_of_lt this]
  omega

namespace FixedBits

theorem pack (w : List CHAR) : Statement (.pack w) := by simp [Statement, encodedBits, encode, tableRow, Request.blank]
theorem unpack (c : Cell) : Statement (.unpack c) := by simp [Statement, encodedBits, encode, tableRow, Request.blank]
theorem runBlock (view : View) (n : Nat) : Statement (.runBlock view n) := by simp [Statement, encodedBits, encode, tableRow, Request.blank]
theorem reservedCmd : Statement .reservedCmd := fun _ => ⟨rfl, rfl⟩
theorem sentinel : Statement .sentinel := fun _ => ⟨rfl, rfl⟩
theorem cellTag0Skip (payload : BitVec 28) : Statement (.cellTag0Skip payload) := fun _ => ⟨rfl, textCell_tag_bits payload _⟩
theorem cellTag1TextA (payload : BitVec 28) : Statement (.cellTag1TextA payload) := fun _ => ⟨rfl, textCell_tag_bits payload _⟩
theorem cellTag2NumA (value : BitVec 27) (bit4 : BitVec 1) : Statement (.cellTag2NumA value bit4) :=
  fun _ => ⟨rfl, numCell_tag_bits value bit4 _⟩
theorem cellTag3DefB (payload : BitVec 28) : Statement (.cellTag3DefB payload) := fun _ => ⟨rfl, textCell_tag_bits payload _⟩
theorem cellTag4TextC (payload : BitVec 28) : Statement (.cellTag4TextC payload) := fun _ => ⟨rfl, textCell_tag_bits payload _⟩
theorem cellTag5NumC5 (value : BitVec 27) (bit4 : BitVec 1) : Statement (.cellTag5NumC5 value bit4) :=
  fun _ => ⟨rfl, numCell_tag_bits value bit4 _⟩
theorem cellTag6NumC6 (value : BitVec 27) (bit4 : BitVec 1) : Statement (.cellTag6NumC6 value bit4) :=
  fun _ => ⟨rfl, numCell_tag_bits value bit4 _⟩
theorem cellTag7TextD (payload : BitVec 28) : Statement (.cellTag7TextD payload) := fun _ => ⟨rfl, textCell_tag_bits payload _⟩
theorem cellTag8NumA8 (value : BitVec 27) (bit4 : BitVec 1) : Statement (.cellTag8NumA8 value bit4) :=
  fun _ => ⟨rfl, numCell_tag_bits value bit4 _⟩
theorem cellTag9TextE9 (payload : BitVec 28) : Statement (.cellTag9TextE9 payload) := fun _ => ⟨rfl, textCell_tag_bits payload _⟩
theorem cellTag10TextE10 (payload : BitVec 28) : Statement (.cellTag10TextE10 payload) := fun _ => ⟨rfl, textCell_tag_bits payload _⟩
theorem cellTag11TextE11 (payload : BitVec 28) : Statement (.cellTag11TextE11 payload) := fun _ => ⟨rfl, textCell_tag_bits payload _⟩
theorem cellTag12TextF (payload : BitVec 28) : Statement (.cellTag12TextF payload) := fun _ => ⟨rfl, textCell_tag_bits payload _⟩
theorem cellTag13TextDefault13 (payload : BitVec 28) : Statement (.cellTag13TextDefault13 payload) := fun _ => ⟨rfl, textCell_tag_bits payload _⟩
theorem cellTag14TextDefault14 (payload : BitVec 28) : Statement (.cellTag14TextDefault14 payload) := fun _ => ⟨rfl, textCell_tag_bits payload _⟩
theorem cellTag15NumE (value : BitVec 27) (bit4 : BitVec 1) : Statement (.cellTag15NumE value bit4) :=
  fun _ => ⟨rfl, numCell_tag_bits value bit4 _⟩
theorem sym0Space : Statement .sym0Space := fun _ => ⟨rfl, rfl⟩
theorem sym1R : Statement .sym1R := fun _ => ⟨rfl, rfl⟩
theorem sym2T : Statement .sym2T := fun _ => ⟨rfl, rfl⟩
theorem sym3O : Statement .sym3O := fun _ => ⟨rfl, rfl⟩
theorem sym4E : Statement .sym4E := fun _ => ⟨rfl, rfl⟩
theorem sym5A : Statement .sym5A := fun _ => ⟨rfl, rfl⟩
theorem sym6N : Statement .sym6N := fun _ => ⟨rfl, rfl⟩
theorem sym7I : Statement .sym7I := fun _ => ⟨rfl, rfl⟩
theorem sym8S : Statement .sym8S := fun _ => ⟨rfl, rfl⟩
theorem sym9M : Statement .sym9M := fun _ => ⟨rfl, rfl⟩
theorem sym10C : Statement .sym10C := fun _ => ⟨rfl, rfl⟩
theorem sym11Y : Statement .sym11Y := fun _ => ⟨rfl, rfl⟩
theorem sym12L : Statement .sym12L := fun _ => ⟨rfl, rfl⟩
theorem sym13G : Statement .sym13G := fun _ => ⟨rfl, rfl⟩
theorem sym14F : Statement .sym14F := fun _ => ⟨rfl, rfl⟩
theorem sym15W : Statement .sym15W := fun _ => ⟨rfl, rfl⟩
theorem sym16D : Statement .sym16D := fun _ => ⟨rfl, rfl⟩
theorem sym17V : Statement .sym17V := fun _ => ⟨rfl, rfl⟩
theorem sym18P : Statement .sym18P := fun _ => ⟨rfl, rfl⟩
theorem sym19B : Statement .sym19B := fun _ => ⟨rfl, rfl⟩
theorem sym20H : Statement .sym20H := fun _ => ⟨rfl, rfl⟩
theorem sym21X : Statement .sym21X := fun _ => ⟨rfl, rfl⟩
theorem sym22U : Statement .sym22U := fun _ => ⟨rfl, rfl⟩
theorem sym23Q : Statement .sym23Q := fun _ => ⟨rfl, rfl⟩
theorem sym24Digit0 : Statement .sym24Digit0 := fun _ => ⟨rfl, rfl⟩
theorem sym25Digit1 : Statement .sym25Digit1 := fun _ => ⟨rfl, rfl⟩
theorem sym26Digit2 : Statement .sym26Digit2 := fun _ => ⟨rfl, rfl⟩
theorem sym27Digit3 : Statement .sym27Digit3 := fun _ => ⟨rfl, rfl⟩
theorem sym28Digit4 : Statement .sym28Digit4 := fun _ => ⟨rfl, rfl⟩
theorem sym29Digit5 : Statement .sym29Digit5 := fun _ => ⟨rfl, rfl⟩
theorem sym30Digit6 : Statement .sym30Digit6 := fun _ => ⟨rfl, rfl⟩
theorem sym31Digit7 : Statement .sym31Digit7 := fun _ => ⟨rfl, rfl⟩
theorem sym32Digit8 : Statement .sym32Digit8 := fun _ => ⟨rfl, rfl⟩
theorem sym33Digit9 : Statement .sym33Digit9 := fun _ => ⟨rfl, rfl⟩
theorem sym34J : Statement .sym34J := fun _ => ⟨rfl, rfl⟩
theorem sym35Minus : Statement .sym35Minus := fun _ => ⟨rfl, rfl⟩
theorem sym36K : Statement .sym36K := fun _ => ⟨rfl, rfl⟩
theorem sym37Dot : Statement .sym37Dot := fun _ => ⟨rfl, rfl⟩
theorem sym38Z : Statement .sym38Z := fun _ => ⟨rfl, rfl⟩
theorem sym39Slash : Statement .sym39Slash := fun _ => ⟨rfl, rfl⟩
theorem sym40Semicolon : Statement .sym40Semicolon := fun _ => ⟨rfl, rfl⟩
theorem sym41Colon : Statement .sym41Colon := fun _ => ⟨rfl, rfl⟩
theorem sym42Bang : Statement .sym42Bang := fun _ => ⟨rfl, rfl⟩
theorem sym43Plus : Statement .sym43Plus := fun _ => ⟨rfl, rfl⟩
theorem sym44At : Statement .sym44At := fun _ => ⟨rfl, rfl⟩
theorem sym45Star : Statement .sym45Star := fun _ => ⟨rfl, rfl⟩
theorem sym46Comma : Statement .sym46Comma := fun _ => ⟨rfl, rfl⟩
theorem sym47Question : Statement .sym47Question := fun _ => ⟨rfl, rfl⟩

end FixedBits

end Sys2Proof.Laws
end

