-- ==== Sys2Proof/Tests/Slice0.lean ====
section
/-! SUPPORT. Tests. Words and results are written out from the spec: encodings from 30_encoding.md and 40_letter_table.md R80,
results from 95_test_vectors.md. The `witness_` theorems meet the hypotheses of the statements of the same name. -/

namespace Sys2Proof.Tests

open Sys2Proof Sys2Proof.Machine

/-- The next state of an outcome, if it is one. -/
def nextOf (o : Host.Outcome State Fault Refusal) : Option State :=
  match o with
  | .next t => some t
  | _ => none

/-- Lean's Char as a type CHAR: the printed glyphs are the 48 glyphs, every other character is some other character. -/
def asCHAR (c : Char) : CHAR :=
  match letterTable.find? fun sym => decide (glyphPrinted sym = c) with
  | some sym => .glyph sym
  | none => .other c.toNat

/-- A word in Lean's Char. -/
def chars (w : List Char) : List CHAR := w.map asCHAR

/-- The positions of a word's characters. -/
def word (w : List Char) : List Position := (chars w).filterMap lookup

/-! ### Well-formedness -/

/-- The all-zero cell is the sentinel, so no tag-0 cell has payload 0 (R51). -/
theorem test_wellFormed_refuses_zero_payload : (Instr.cellTag0Skip 0#28).wellFormed = false := by decide
theorem test_wellFormed_accepts_payload : (Instr.cellTag0Skip 1#28).wellFormed = true := by decide

/-! ### Decoding, one word for each constructor -/

theorem test_decode_commands :
    decodeTableWord 2 0b00 = some (.pack []) ∧ decodeTableWord 2 0b01 = some (.unpack 0#32) ∧
    decodeTableWord 2 0b10 = some (.runBlock { base := 0, len := 0 } 0) ∧ decodeTableWord 2 0b11 = some .reservedCmd := by
  decide

/-- The cells of 95_test_vectors.md 2.4: payload 31:4 or value 31:5 written as their own numbers. -/
theorem test_decode_cells :
    decodeCell 0x00000000#32 = .sentinel ∧ decodeCell 0xC19B1000#32 = .cellTag0Skip 0xC19B100#28 ∧
    decodeCell 0x85D71001#32 = .cellTag1TextA 0x85D7100#28 ∧ decodeCell 0x00000552#32 = .cellTag2NumA 42#27 1#1 ∧
    decodeCell 0x3C282003#32 = .cellTag3DefB 0x3C28200#28 ∧ decodeCell 0x8AC84C04#32 = .cellTag4TextC 0x8AC84C0#28 ∧
    decodeCell 0x00000545#32 = .cellTag5NumC5 42#27 0#1 ∧ decodeCell 0x00000546#32 = .cellTag6NumC6 42#27 0#1 ∧
    decodeCell 0xC6664007#32 = .cellTag7TextD 0xC666400#28 ∧ decodeCell 0x00000548#32 = .cellTag8NumA8 42#27 0#1 ∧
    decodeCell 0x7B000009#32 = .cellTag9TextE9 0x7B00000#28 ∧ decodeCell 0x2C88C00A#32 = .cellTag10TextE10 0x2C88C00#28 ∧
    decodeCell 0x4A41000B#32 = .cellTag11TextE11 0x4A41000#28 ∧ decodeCell 0xC2A2000C#32 = .cellTag12TextF 0xC2A2000#28 ∧
    decodeCell 0xC027880D#32 = .cellTag13TextDefault13 0xC027880#28 ∧
    decodeCell 0xC899400E#32 = .cellTag14TextDefault14 0xC899400#28 ∧
    decodeCell 0xFFFFFFEF#32 = .cellTag15NumE 134217727#27 0#1 := by
  decide

theorem test_decode_cw4 :
    [0b0000, 0b0001, 0b0010, 0b0011, 0b0100, 0b0101, 0b0110, 0b0111].map (decodeTableWord 4) =
      [some .sym0Space, some .sym1R, some .sym2T, some .sym3O, some .sym4E, some .sym5A, some .sym6N, some .sym7I] := by
  decide

theorem test_decode_cw5 :
    [0b10000, 0b10001, 0b10010, 0b10011, 0b10100, 0b10101, 0b10110, 0b10111].map (decodeTableWord 5) =
      [some .sym8S, some .sym9M, some .sym10C, some .sym11Y, some .sym12L, some .sym13G, some .sym14F, some .sym15W] := by
  decide

theorem test_decode_cw7_low :
    [0b1100000, 0b1100001, 0b1100010, 0b1100011, 0b1100100, 0b1100101, 0b1100110, 0b1100111,
     0b1101000, 0b1101001, 0b1101010, 0b1101011, 0b1101100, 0b1101101, 0b1101110, 0b1101111].map (decodeTableWord 7) =
      [some .sym16D, some .sym17V, some .sym18P, some .sym19B, some .sym20H, some .sym21X, some .sym22U, some .sym23Q,
       some .sym24Digit0, some .sym25Digit1, some .sym26Digit2, some .sym27Digit3, some .sym28Digit4, some .sym29Digit5,
       some .sym30Digit6, some .sym31Digit7] := by
  decide

theorem test_decode_cw7_high :
    [0b1110000, 0b1110001, 0b1110010, 0b1110011, 0b1110100, 0b1110101, 0b1110110, 0b1110111,
     0b1111000, 0b1111001, 0b1111010, 0b1111011, 0b1111100, 0b1111101, 0b1111110, 0b1111111].map (decodeTableWord 7) =
      [some .sym32Digit8, some .sym33Digit9, some .sym34J, some .sym35Minus, some .sym36K, some .sym37Dot, some .sym38Z,
       some .sym39Slash, some .sym40Semicolon, some .sym41Colon, some .sym42Bang, some .sym43Plus, some .sym44At,
       some .sym45Star, some .sym46Comma, some .sym47Question] := by
  decide

/-- A byte that is not exactly one codeword is refused: `1000` is cut short, `100000` is too long. -/
theorem test_decode_refuses_other_bytes : decodeTableWord 8 0b1000 = none ∧ decodeTableWord 8 0b100000 = none := by decide

/-! ### The Letter Table (95_test_vectors.md 2.1) -/

theorem test_lookup : ([' ', 'i', 's', 'w', 'd', '0', '?'].map (lookup ∘ asCHAR) = [some 0, some 7, some 8, some 15, some 16, some 24,
    some 47]) ∧ ['A', '\t', '#'].map (lookup ∘ asCHAR) = [none, none, none] := by decide

/-! ### PACK (2.2) -/

theorem test_pack_dup :
    (nextOf (exec (.pack (chars ['d', 'u', 'p'])) State.reset)).map (fun t => (t.resCell, t.status)) =
      some (0xC19B1000#32, 0x00#8) := by decide
theorem test_pack_errors :
    [['a', 'a', 'a', 'a', 'a', 'a', 'a', 'A'], ['a', 'a', 'a', 'a', 'a', 'a', 'a', 'a', 'A'], ['d', 'd', 'd', 'd', 'a'],
      [' ', ' ', ' '], []].map (fun w => (nextOf (exec (.pack (chars w)) State.reset)).map (·.status)) =
      [some 0xE1#8, some 0xE2#8, some 0x82#8, some 0x03#8, some 0x03#8] := by decide

/-! ### UNPACK and the codewords (2.3) -/

theorem test_unpack_vectors :
    [0x0000000F#32, 0xC19B1007#32, 0x00000052#32, 0x111111F0#32, 0x000000A0#32, 0x0FFFFFF0#32].map unpack =
      [[], word ['d', 'u', 'p'], word [' ', ' ', ' ', ' ', ' ', ' ', 'a'], word ['r', 'r', 'r', 'r', 'r', 'r', ';'],
       word [' ', ' ', ' ', ' ', ' ', ' ', 'l'], word [' ', '?', '?', '?', '8']] := by decide
/-- The command is one step: 2.3's `dup`, and a command after an error. -/
theorem test_unpack_command :
    (nextOf (exec (.unpack 0xC19B1007#32) { State.reset with status := 0xE2#8 })).map
      (fun t => (t.resSyms, t.status, t.unpacking)) = some ([16, 22, 18], 0x00#8, false) := by decide
/-- An UNPACK in progress at POS 7 of `dup` takes `1100110`, position 22. -/
theorem test_step_takes_codeword :
    (nextOf (step { State.reset with unpacking := true, unpackCell := 0xC19B1000#32, pos := 7, unpackOut := [16] })).map
      (fun t => (t.unpackOut, t.pos, t.unpacking)) = some ([16, 22], 14, true) := by decide
/-- After the last codeword of `dup` no bit is 1, and UNPACK ends. -/
theorem test_step_ends_unpack :
    (nextOf (step { State.reset with unpacking := true, unpackCell := 0xC19B1000#32, pos := 21,
                                     unpackOut := [16, 22, 18], status := 0xE2#8 })).map
      (fun t => (t.resSyms, t.status, t.unpacking)) = some ([16, 22, 18], 0x00#8, false) := by decide

/-! ### RUN_BLOCK (2.4, 2.5) -/

/-- A run in progress that reads the given cell next, with DEFCNT = 0. -/
def running (c : Cell) : State :=
  { State.reset with phase := .running, view := { base := 5, len := 256 }, store := [(5, c)] }

/-- What one step of that run emits, and DEFCNT and IDX after it. -/
def emitted (c : Cell) : Option (List Event × BitVec 9 × BitVec 9) :=
  (nextOf (step (running c))).map fun t => (t.out, t.defcnt, t.idx)

theorem test_tag0 : emitted 0xC19B1000#32 = some ([], 0, 1) := by decide
theorem test_tag1 : emitted 0x85D71001#32 = some ([.color .a, .text (word ['s', 'w', 'a', 'p']), .sep], 0, 1) := by decide
theorem test_tag2 : emitted 0x00000552#32 = some ([.color .a, .num 42, .sep], 0, 1) := by decide
theorem test_tag3_first : emitted 0x3C282003#32 = some ([.color .b, .text (word ['o', 'v', 'e', 'r']), .sep], 1, 1) := by
  decide
theorem test_tag3_again :
    (nextOf (step { running 0x3C282003#32 with defcnt := 1#9 })).map (fun t => (t.out, t.defcnt)) =
      some ([.color .b, .lineBreak, .text (word ['o', 'v', 'e', 'r']), .sep], 2#9) := by decide
theorem test_tag4 : emitted 0x8AC84C04#32 = some ([.color .c, .text (word ['m', 'a', 'c', 'r', 'o']), .sep], 0, 1) := by
  decide
theorem test_tag5 : emitted 0x00000545#32 = some ([.color .c, .num 42, .sep], 0, 1) := by decide
theorem test_tag6 : emitted 0x00000546#32 = some ([.color .c, .num 42, .sep], 0, 1) := by decide
theorem test_tag7 : emitted 0xC6664007#32 = some ([.color .d, .text (word ['b', 'o', 'o', 't']), .sep], 0, 1) := by decide
theorem test_tag8 : emitted 0x00000548#32 = some ([.color .a, .num 42, .sep], 0, 1) := by decide
theorem test_tag9 : emitted 0x7B000009#32 = some ([.color .e, .text (word ['i', 'f']), .sep], 0, 1) := by decide
theorem test_tag10 : emitted 0x2C88C00A#32 = some ([.color .e, .text (word ['t', 'h', 'e', 'n']), .sep], 0, 1) := by decide
theorem test_tag11 : emitted 0x4A41000B#32 = some ([.color .e, .text (word ['e', 'l', 's', 'e']), .sep], 0, 1) := by decide
theorem test_tag12 : emitted 0xC2A2000C#32 = some ([.color .f, .text (word ['v', 'a', 'r']), .sep], 0, 1) := by decide
theorem test_tag13 : emitted 0xC027880D#32 = some ([.text (word ['d', 'r', 'o', 'p']), .sep], 0, 1) := by decide
theorem test_tag14 : emitted 0xC899400E#32 = some ([.text (word ['h', 'e', 'x']), .sep], 0, 1) := by decide
theorem test_tag15 : emitted 0xFFFFFFEF#32 = some ([.color .e, .num 134217727, .sep], 0, 1) := by decide
/-- A text tag with payload 0 is an empty token (R136). -/
theorem test_empty_text : emitted 0x00000001#32 = some ([.color .a, .text [], .sep], 0, 1) := by decide
theorem test_sentinel :
    (nextOf (step (running 0#32))).map (fun t => (t.phase, t.status, t.idx, t.out)) = some (.idle, 0x08#8, 0#9, []) := by
  decide
theorem test_window_end :
    (nextOf (step { running 0#32 with idx := 256#9 })).map (fun t => (t.phase, t.status)) = some (.idle, 0x10#8) := by decide

/-- 2.5: view lengths 512 and 300 for block 1, a block index of 2^40, and what an accepted run starts with. -/
theorem test_run_block_range :
    [((⟨0, 512⟩ : View), 1), (⟨0, 300⟩, 1), (⟨0, 300⟩, 0), (⟨0, 255⟩, 0), (⟨0, 0⟩, 0), (⟨0, 256⟩, 2 ^ 40)].map
      (fun vn => (nextOf (exec (.runBlock vn.1 vn.2) State.reset)).map (fun t => (t.phase, t.status))) =
      [some (.running, 0x00#8), some (.idle, 0x04#8), some (.running, 0x00#8), some (.idle, 0x04#8), some (.idle, 0x04#8),
       some (.idle, 0x04#8)] := by decide
theorem test_run_block_enters :
    (nextOf (exec (.runBlock ⟨7, 512⟩ 1) { State.reset with defcnt := 3#9, idx := 9#9, out := [.sep] })).map
      (fun t => (t.defcnt, t.blk, t.idx, t.out)) = some (0#9, 1, 0#9, []) := by decide
theorem test_reserved_command : (nextOf (exec .reservedCmd State.reset)).map (·.status) = some 0x05#8 := by decide

/-! ### The host's interface -/

theorem test_host_load_and_power_on :
    (nextOf (step { State.reset with host := [.load 3 0x10#32, .powerOn] })).map (fun t => (t.store, t.host)) =
        some ([(3, 0x10#32)], [.powerOn]) ∧
      (nextOf (step { State.reset with host := [.powerOn], status := 0xE2#8, store := [(3, 0x10#32)] })).map
        (fun t => (t.status, t.store, t.host)) = some (0x00#8, [(3, 0x10#32)], []) := by decide

/-- The very next step after placing a word runs its instruction: UNPACK (of the zero cell) runs, `w` and the space are taken, the
definition arm runs. -/
theorem test_fetch_places :
    (nextOf (step ({ State.reset with status := 0xE2#8 }.withFetchWord 8 0b01))).map (fun t => (t.resSyms, t.status)) =
      some ([], 0x00#8) ∧
    (nextOf (step (State.reset.withFetchWord 8 0b10111))).map (fun t => (t.unpackOut, t.pos)) = some ([15], 5) ∧
    (nextOf (step (State.reset.withFetchWord 4 0b0000))).map (fun t => (t.unpackOut, t.pos)) = some ([0], 4) ∧
    (nextOf (step (State.reset.withFetchWord 32 0x3C282003))).map (fun t => (t.defcnt, t.idx)) = some (1#9, 1#9) := by decide

theorem test_faults :
    (match memRead (running 0#32) 256 with | .error f => some f | .ok _ => none) = some (.outsideView 256) ∧
    (match memRead (running 0#32) 1 with | .error f => some f | .ok _ => none) = some (.outsideStore 6) := by decide

/-- S1: NUM(2) is written `2`; a SEP is one space. -/
theorem test_glyphs : Event.glyphs (.num 2) = ['2'] ∧ Event.glyphs .sep = [' '] := by decide

/-! ### Witnesses -/

theorem witness_DecodeEncode : (Instr.cellTag0Skip 0xFFFFFFF#28).WellFormed := by decide
theorem witness_CommandCodes : (Request.blank 0b00#2).cmd = 0b00#2 ∧ (Request.blank 0b01#2).cmd = 0b01#2 ∧
    (Request.blank 0b10#2).cmd = 0b10#2 ∧ (Request.blank 0b11#2).cmd = 0b11#2 := by decide
theorem witness_LookupExact : lookup (.glyph .question) = some 47 ∧ symbolAt 47 = .glyph .question ∧
    lookup (asCHAR 'A') = none := by decide
/-- Lean's Char, with the printed glyphs as the 48 glyphs, maps into the characters a command carries. -/
theorem witness_AnyCharType : glyphPrinted.Injective ∧ (∀ sym : Glyph, asCHAR (glyphPrinted sym) = .glyph sym) ∧
    ∀ ch : Char, (∀ sym : Glyph, glyphPrinted sym ≠ ch) → ∃ n, asCHAR ch = .other n := by
  have hg : ∀ sym : Glyph, asCHAR (glyphPrinted sym) = .glyph sym := by intro sym; cases sym <;> decide
  refine ⟨fun sym sym' h => CHAR.glyph.inj (by rw [← hg sym, ← hg sym', h]), hg, fun ch h => ⟨ch.toNat, ?_⟩⟩
  have hnone : letterTable.find? (fun sym => decide (glyphPrinted sym = ch)) = none := by simp [h]
  simp [asCHAR, hnone]
theorem witness_CommandsAtomic : { State.reset with host := [.issue (Request.blank 0b01#2)] }.isIdle ∧
    (Request.blank 0b01#2).cmd ≠ 0b10#2 := ⟨⟨rfl, rfl⟩, by decide⟩
theorem witness_CodewordFormats_boundaries : ((7 : Position).val < 8) ∧ (8 ≤ (8 : Position).val ∧ (15 : Position).val < 16) ∧
    (16 ≤ (16 : Position).val ∧ 16 ≤ (47 : Position).val) := by decide
theorem witness_CodePrefixFreeComplete : codewordBits 8 <+: codewordBits 8 := List.prefix_refl _
theorem witness_RegisterHoldsStream : (31 : Nat) < 32 := by decide
/-- Exactly 28 bits, seven symbols: `rtoeani`. -/
theorem witness_PackWritesCell : (wordBits [1, 2, 3, 4, 5, 6, 7]).length = 28 ∧ ∃ p ∈ ([1, 2, 3, 4, 5, 6, 7] : List Position),
    p ≠ 0 := by decide
theorem witness_PackAccumulates : (wordBits [1, 2, 3, 4, 5, 6, 7]).length ≤ 28 ∧
    (match packLoop lookup (chars ['r']) 0 PackRegs.zero with | .ok r => r.nb | .error _ => 99) = 4 := by decide
theorem witness_PackUnknownSymbol : (wordBits [5, 5, 5, 5, 5, 5, 5]).length ≤ 28 ∧ ∀ p : Position,
    symbolAt p ≠ asCHAR 'A' := by decide
theorem witness_PackWordTooLong : (wordBits [16, 16, 16, 16]).length ≤ 28 ∧
    28 < (wordBits [16, 16, 16, 16]).length + (codewordBits 5).length := by decide
theorem witness_PackEmptyWord : (0 : Nat) ≤ 7 ∧ (7 : Nat) ≤ 7 := by decide
/-- `ab ` loses its trailing space; ` a` keeps its leading one and ends in no space. -/
theorem witness_PackUnpackRoundTrip : (wordBits [5, 19, 0]).length ≤ 28 ∧ (∃ p ∈ ([5, 19, 0] : List Position), p ≠ 0) ∧
    (wordBits [0, 5]).length ≤ 28 ∧ (∃ p ∈ ([0, 5] : List Position), p ≠ 0) ∧
    ([0, 5] : List Position).getLast? ≠ some 0 := by decide
theorem witness_UnpackSevenPasses : (7 : Nat) ≤ 7 := by decide
theorem witness_RunBlockEnters : 256 * 1 + 256 ≤ (⟨0, 512⟩ : View).len := by decide
theorem witness_RunBlockOutOfRange : (⟨0, 511⟩ : View).len < 256 * 1 + 256 := by decide
theorem witness_DefinitionArm : State.reset.defcnt = 0#9 ∧ { State.reset with defcnt := 1#9 }.defcnt ≠ 0#9 := by decide
theorem witness_DispatchFollowsTagMap : (0x00000001#32 : Cell) ≠ 0#32 := by decide
theorem witness_NumericBit4Ignored : cellTag 0x00000552#32 = 2#4 ∧ cellTag 0x00000555#32 = 5#4 ∧ cellTag 0x00000556#32 = 6#4 ∧
    cellTag 0x00000558#32 = 8#4 ∧ cellTag 0x0000055F#32 = 15#4 := by decide
theorem witness_SentinelEndsRun : (running 0#32).unpacking = false ∧ (running 0#32).phase = .running ∧
    (running 0#32).idx ≠ 256#9 ∧
    (memRead (running 0#32) (256 * (running 0#32).blk + (running 0#32).idx.toNat)).toOption = some 0#32 := by decide
theorem witness_WindowEndsRun : { running 0#32 with idx := 256#9 }.unpacking = false ∧
    { running 0#32 with idx := 256#9 }.phase = .running ∧ { running 0#32 with idx := 256#9 }.idx = 256#9 := by decide
/-- A block ended by a sentinel after one cell: only those two cells stand in the store. -/
theorem witness_RunBlockRenders_sentinel : State.reset.unpacking = false ∧ 256 * 0 + 256 ≤ (⟨5, 256⟩ : View).len ∧
    blockHolds [(5, 0x52#32), (6, 0#32)] ⟨5, 256⟩ 0 [0x52#32, 0#32] ∧
    ([0x52#32, 0#32].length ≤ 256 ∧ (0#32 : Cell) ∈ [0x52#32, 0#32]) := by
  refine ⟨rfl, by decide, ?_, by decide⟩
  intro k hk
  have : k = 0 ∨ k = 1 := by simp only [List.length_cons, List.length_nil] at hk; omega
  rcases this with rfl | rfl <;> rfl
/-- A store of `n` cells `c` from index `i` on. -/
def filled (c : Cell) : Nat → Nat → Memory
  | 0, _ => []
  | n + 1, i => (i, c) :: filled c n (i + 1)
theorem read_filled (c : Cell) (n : Nat) : ∀ i k, k < n → (filled c n i).read (i + k) = some c := by
  induction n with
  | zero => intro i k hk; omega
  | succ n ih =>
    intro i k hk
    rw [filled, Memory.read]
    by_cases h : k = 0
    · rw [if_pos (by omega)]
    · rw [if_neg (by omega)]
      have := ih (i + 1) (k - 1) (by omega)
      rwa [show i + 1 + (k - 1) = i + k by omega] at this
theorem risesPast_filled (c : Cell) (n : Nat) : ∀ low i, low < i → Memory.risesPast low (filled c n i) = true := by
  induction n with
  | zero => intros; rfl
  | succ n ih =>
    intro low i h
    rw [filled, Memory.risesPast, ih i (i + 1) (by omega)]
    simp [h]
/-- A block of 256 nonzero cells, ended by the window boundary. -/
theorem witness_RunBlockRenders_window :
    blockHolds (filled 0xEF#32 256 0) ⟨0, 256⟩ 0 (List.replicate 256 0xEF#32) ∧
    (List.replicate 256 (0xEF#32 : Cell)).length = 256 := by
  refine ⟨?_, List.length_replicate⟩
  intro k hk
  rw [List.length_replicate] at hk
  have := read_filled 0xEF#32 256 0 k hk
  rw [List.getElem?_replicate, if_pos hk, ← this]
  exact congrArg _ (by show 0 + (256 * 0 + k) = 0 + k; omega)
/-- The three situations of a step: a command issued to the idle RPD, a cell of a run, a codeword of an UNPACK. -/
theorem witness_StepRunsDecoded :
    ({ State.reset with host := [.issue (Request.blank 0b11#2)] }.unpacking = false ∧
      { State.reset with host := [.issue (Request.blank 0b11#2)] }.phase = .idle) ∧
    ((running 0x52#32).unpacking = false ∧ (running 0x52#32).phase = .running ∧ (running 0x52#32).idx ≠ 256#9 ∧
      256 * (running 0x52#32).blk + (running 0x52#32).idx.toNat < (running 0x52#32).view.len ∧
      (running 0x52#32).store.read 5 = some 0x52#32) ∧
    ({ State.reset with unpacking := true, unpackCell := 0x10#32 }.unpacking = true ∧ streamFrom 0x10#32 0 ≠ 0#32) := by
  decide
/-- A run in progress on a store that has the whole view, in a state of the invariant. -/
def runningOnWhole : State :=
  { State.reset with phase := .running, view := ⟨0, 256⟩, store := filled 0xEF#32 256 0 }
theorem witness_run_in_progress : runningOnWhole.Inv ∧ runningOnWhole.OutputInv ∧ ¬ runningOnWhole.isIdle ∧
    runningOnWhole.viewInStore := by
  refine ⟨?_, ⟨rfl, rfl, rfl⟩, ?_, ?_⟩
  · exact
      { storeCanonical := risesPast_filled 0xEF#32 255 0 1 (by omega)
        oneCommand := by decide
        idxInWindow := by decide
        defcntCounted := by decide
        windowInView := by decide
        statusLegal := by decide
        resSymsShort := by decide
        nbBound := by decide
        posBound := by decide
        unpackProgress := by decide }
  · intro h
    exact Phase.noConfusion h.2
  · intro a ha
    exact (congrArg Option.isSome (read_filled 0xEF#32 256 0 a ha)).trans rfl
/-- That run's next step answers a next state: the cell at offset 0 is rendered. -/
theorem witness_step_of_run : (nextOf (step runningOnWhole)).map (·.idx) = some 1#9 := by decide
/-- An UNPACK in progress, in a state of the invariant. -/
theorem witness_unpack_in_progress :
    { State.reset with unpacking := true, unpackCell := 0xC19B1000#32, pos := 7, unpackOut := [16] }.Inv ∧
    ¬ { State.reset with unpacking := true, unpackCell := 0xC19B1000#32, pos := 7, unpackOut := [16] }.isIdle := by
  refine ⟨?_, fun h => Bool.noConfusion h.1⟩
  constructor <;> decide
theorem witness_idle_moves : State.reset.isIdle ∧ State.reset.host = [] ∧
    { State.reset with host := [.load 3 0x10#32] }.isIdle ∧ { State.reset with host := [.powerOn] }.isIdle :=
  ⟨⟨rfl, rfl⟩, rfl, ⟨rfl, rfl⟩, ⟨rfl, rfl⟩⟩
/-- Two idle states that differ in DEFCNT, BLK, IDX, ACC, NB and POS only. -/
theorem witness_HiddenStateUnobservable :
    SameToHost State.reset { State.reset with defcnt := 3#9, blk := 7, idx := 9#9, acc := 5#28, nb := 4, pos := 8 } := by
  constructor <;> simp [State.reset]

end Sys2Proof.Tests
end

-- ==== Proofs of 00_scope.md ====
section
/-! PROOFS. The statements of 00_scope.md: CHAR is an argument of LOOKUP and PACK (R4), and the RPD never writes the Cell
Store (R3). -/

open Sys2Proof Sys2Proof.Machine

namespace Sys2Proof.Scope

/-! ### The Letter Table -/

theorem letterTable_nodup : letterTable.Nodup := by decide

theorem letterTable_get (p : Position) : letterTable[p.val]? = some (glyphAt p) := by
  have hlen : p.val < letterTable.length := p.isLt
  rw [glyphAt, List.getD_eq_getElem _ _ hlen, List.getElem?_eq_getElem hlen]

theorem glyphAt_injective : Function.Injective glyphAt := by
  intro p q h
  have hget : letterTable[p.val]? = letterTable[q.val]? := by rw [letterTable_get, letterTable_get, h]
  exact Fin.ext ((List.getElem?_inj p.isLt letterTable_nodup).1 hget)

/-- Every one of the 48 glyphs stands in the table. -/
theorem glyph_mem_letterTable (sym : Glyph) : sym ∈ letterTable := by
  cases sym <;> decide

/-! ### LOOKUP over any CHAR -/

section Lookup

variable {α : Type} [DecidableEq α] {glyph : Glyph → α}

/-- LOOKUP answers only a position that holds the character. -/
theorem glyph_of_lookupIn {ch : α} {p : Position} (h : lookupIn glyph ch = some p) : glyph (glyphAt p) = ch := by
  unfold lookupIn at h
  split at h
  · next k hk =>
    split at h
    · next hlt =>
      cases h
      have hget := (findSymbol_some _ _ _ _ hk).2
      rw [Nat.sub_zero, List.getElem?_map, letterTable_get ⟨k, hlt⟩] at hget
      exact Option.some.inj hget
    · cases h
  · cases h

/-- LOOKUP fails only on a character that is none of the 48 glyphs. -/
theorem glyph_ne_of_lookupIn_none {ch : α} (h : lookupIn glyph ch = none) (sym : Glyph) : glyph sym ≠ ch := by
  unfold lookupIn at h
  split at h
  · next k hk =>
    have hlt : k < 48 := by
      obtain ⟨hk', -⟩ := List.getElem?_eq_some_iff.1 (findSymbol_some _ _ _ _ hk).2
      simpa [letterTable] using hk'
    rw [dif_pos hlt] at h
    cases h
  · next hk =>
    rintro rfl
    exact findSymbol_none _ _ _ hk (List.mem_map_of_mem (glyph_mem_letterTable sym))

/-- LOOKUP is exact: R81 over any CHAR in which the 48 glyphs are told apart. -/
theorem lookupIn_eq_some_iff (hinj : glyph.Injective) (ch : α) (p : Position) :
    lookupIn glyph ch = some p ↔ glyph (glyphAt p) = ch := by
  refine ⟨glyph_of_lookupIn, fun hp => ?_⟩
  cases hq : lookupIn glyph ch with
  | none => exact absurd hp (glyph_ne_of_lookupIn_none hq _)
  | some q =>
    have hglyph : glyph (glyphAt q) = glyph (glyphAt p) := (glyph_of_lookupIn hq).trans hp.symm
    rw [glyphAt_injective (hinj hglyph)]

theorem lookup_glyphAt (p : Position) : lookup (.glyph (glyphAt p)) = some p :=
  (lookupIn_eq_some_iff (fun _ _ => CHAR.glyph.inj) _ p).2 rfl

theorem lookup_other (n : Nat) : lookup (.other n) = none := by
  cases h : lookup (.other n) with
  | none => rfl
  | some p => exact nomatch glyph_of_lookupIn h

/-- A map that sends glyph to glyph and any other character to an other character keeps what LOOKUP answers. -/
theorem lookup_map (f : α → CHAR) (hglyph : ∀ sym, f (glyph sym) = .glyph sym)
    (hother : ∀ ch, (∀ sym, glyph sym ≠ ch) → ∃ n, f ch = .other n) (ch : α) :
    lookup (f ch) = lookupIn glyph ch := by
  cases h : lookupIn glyph ch with
  | none =>
    obtain ⟨n, hn⟩ := hother ch (glyph_ne_of_lookupIn_none h)
    rw [hn, lookup_other]
  | some p => rw [← glyph_of_lookupIn h, hglyph, lookup_glyphAt]

end Lookup

/-! ### PACK over any CHAR -/

/-- PACK's loop sees its characters through LOOKUP only. -/
theorem packLoop_map {α β : Type} (f : α → β) (look : α → Option Position) (look' : β → Option Position)
    (hlook : ∀ ch, look' (f ch) = look ch) (w : List α) (j : Nat) (r : PackRegs) :
    packLoop look' (w.map f) j r = packLoop look w j r := by
  induction w generalizing j r with
  | nil => rfl
  | cons ch rest ih => simp only [List.map_cons, packLoop, hlook, ih]

theorem exec_pack (w : List CHAR) (s : State) :
    exec (.pack w) s = .next (releaseCodec (packResult (packLoop lookup w 0 PackRegs.zero) s)) := rfl

/-! ### What the commands leave of the Cell Store -/

@[simp] theorem packResult_store (result : Except (ErrorKind × Nat) PackRegs) (s : State) :
    (packResult result s).store = s.store := by
  obtain ⟨e, j, -, h⟩ | ⟨r, -, -, h⟩ | ⟨r, -, -, h⟩ := packResult_cases result s <;> rw [h] <;> rfl

/-- UNPACK of a cell ends with the cell's symbols as its output, whatever POS it has reached. -/
theorem exec_unpack (c : Cell) (s : State) :
    ∃ pos, exec (.unpack c) s = .next (endUnpack { beginUnpack c s with unpackOut := unpack c, pos := pos }) := by
  obtain ⟨pos, hloop⟩ := unpackLoop_eq Config.maxSymbols (beginUnpack c s)
  refine ⟨pos, ?_⟩
  have hstart : streamFrom c 0 = streamWord c := BitVec.shiftLeft_zero _
  simp only [exec, execUnpack, hloop, andThen_next, beginUnpack_unpackOut, beginUnpack_unpackCell, beginUnpack_pos, hstart,
    List.nil_append, unpack]

theorem exec_runBlock (view : View) (n : Nat) (s : State) :
    exec (.runBlock view n) s = .next (if windowOutside view n then raise .outOfRangeBlock 0 s else enter view n s) := rfl

theorem exec_reservedCmd (s : State) : exec .reservedCmd s = .next (raise .illegalCommand 0 s) := rfl

/-- A request is one of the four commands (30_encoding.md R61). -/
theorem decodeCommand_cases (r : Request) :
    decodeCommand r = .pack r.word ∨ decodeCommand r = .unpack r.cell ∨
    decodeCommand r = .runBlock r.view r.block ∨ decodeCommand r = .reservedCmd := by
  unfold decodeCommand
  split <;> simp

/-- No command writes the Cell Store. -/
theorem exec_decodeCommand_store (r : Request) (s t : State) (h : exec (decodeCommand r) s = .next t) :
    t.store = s.store := by
  obtain hr | hr | hr | hr := decodeCommand_cases r <;> rw [hr] at h
  · rw [exec_pack] at h
    cases h
    simp
  · obtain ⟨pos, hu⟩ := exec_unpack r.cell s
    rw [hu] at h
    cases h
    simp
  · rw [exec_runBlock] at h
    cases h
    split <;> simp
  · rw [exec_reservedCmd] at h
    cases h
    simp

/-- No cell of a run writes the Cell Store. -/
theorem armEffect_store {c : Cell} {s t : State} (h : ArmEffect c s t) : t.store = s.store := by
  obtain ⟨-, rfl⟩ | ⟨-, rfl⟩ | ⟨-, -, k, rfl⟩ | ⟨-, -, k, rfl⟩ := h <;> simp

/-! ### The obligations -/

/-- Settles O3: the mapped word has the same LOOKUP at every character, and PACK's loop uses nothing else of it. -/
theorem anyCharType : Obligations.AnyCharType := by
  intro α _ glyph hinj
  refine ⟨lookupIn_eq_some_iff hinj, fun f hglyph hother w s => ?_⟩
  rw [exec_pack, packLoop_map f (lookupIn glyph) lookup (lookup_map f hglyph hother)]

/-- Settles O44, by the cases of a step: only the idle RPD's load move has an effect on the store. -/
theorem onlyHostWritesStore : Obligations.OnlyHostWritesStore := by
  intro s t h
  obtain ⟨-, -, rfl⟩ | ⟨-, -, rfl⟩ | ⟨-, -, -, rfl⟩ | ⟨-, -, -, -, rfl⟩ | ⟨-, -, -, c, -, -, harm⟩ | ⟨-, -, -, rfl⟩ |
    ⟨-, -, r, rest, -, hexec⟩ | ⟨hu, hp, a, c, rest, hhost, rfl⟩ | ⟨-, -, rest, -, rfl⟩ := step_cases s t h
  · exact .inl (endUnpack_store s)
  · exact .inl (takeCodeword_store _ s)
  · exact .inl (endRun_store _ s)
  · exact .inl (endRun_store _ s)
  · exact .inl (armEffect_store harm)
  · exact .inl rfl
  · exact .inl (exec_decodeCommand_store r { s with host := rest } t hexec)
  · exact .inr ⟨⟨hu, hp⟩, a, c, rest, hhost, hostLoad_store a c _⟩
  · exact .inl (powerOn_store _)

end Sys2Proof.Scope
end

-- ==== Proofs of 10_state.md ====
section
/-! PROOFS. The statements of 10_state.md: the Letter Table (R10), STATUS (R14), the invariant of the registers and the store
(R12 to R17), and what the host cannot see of the registers (R12, R17). -/

open Sys2Proof Sys2Proof.Machine

namespace Sys2Proof.Registers

/-! ### STATUS -/

theorem mkStatus_toNat (code : BitVec 3) (e : BitVec 2) (symidx : BitVec 3) :
    (mkStatus code e symidx).toNat = symidx.toNat * 32 + e.toNat * 8 + code.toNat := by
  rw [mkStatus, BitVec.toNat_append, BitVec.toNat_append, ← Nat.shiftLeft_add_eq_or_of_lt code.isLt,
    ← Nat.shiftLeft_add_eq_or_of_lt e.isLt, Nat.shiftLeft_eq, Nat.shiftLeft_eq]
  omega

@[simp] theorem statusCode_mkStatus (code : BitVec 3) (e : BitVec 2) (symidx : BitVec 3) :
    statusCode (mkStatus code e symidx) = code := by
  have := code.isLt
  apply BitVec.eq_of_toNat_eq
  rw [statusCode, BitVec.extractLsb'_toNat, mkStatus_toNat, Nat.shiftRight_eq_div_pow]
  omega

@[simp] theorem statusEnd_mkStatus (code : BitVec 3) (e : BitVec 2) (symidx : BitVec 3) :
    statusEnd (mkStatus code e symidx) = e := by
  have := code.isLt
  have := e.isLt
  apply BitVec.eq_of_toNat_eq
  rw [statusEnd, BitVec.extractLsb'_toNat, mkStatus_toNat, Nat.shiftRight_eq_div_pow]
  omega

@[simp] theorem statusSymidx_mkStatus (code : BitVec 3) (e : BitVec 2) (symidx : BitVec 3) :
    statusSymidx (mkStatus code e symidx) = symidx := by
  have := code.isLt
  have := e.isLt
  have := symidx.isLt
  apply BitVec.eq_of_toNat_eq
  rw [statusSymidx, BitVec.extractLsb'_toNat, mkStatus_toNat, Nat.shiftRight_eq_div_pow]
  omega

theorem legalStatus_mkStatus (code : BitVec 3) (e : BitVec 2) (symidx : BitVec 3) :
    legalStatus (mkStatus code e symidx) ↔
      code ≤ 5#3 ∧ e ≤ 2#2 ∧ (e ≠ 0#2 → code = 0#3) ∧ (symidx ≠ 0#3 → code = 1#3 ∨ code = 2#3) := by
  simp only [legalStatus, statusCode_mkStatus, statusEnd_mkStatus, statusSymidx_mkStatus]

theorem okStatus_legal : legalStatus okStatus := by decide

theorem runStatus_legal (r : EndKind) : legalStatus (runStatus r) := by cases r <;> decide

/-- An error's STATUS is legal with any position if PACK's loop raises it (R14: SYMIDX). -/
theorem errorStatus_legal_of_packLoop {e : ErrorKind} (info : Nat) (he : e = .unknownSymbol ∨ e = .wordTooLong) :
    legalStatus (errorStatus e info) := by
  rw [errorStatus, legalStatus_mkStatus]
  obtain rfl | rfl := he <;> simp [ErrorKind.code]

/-- Every error's STATUS is legal with position 0. -/
theorem errorStatus_zero_legal (e : ErrorKind) : legalStatus (errorStatus e 0) := by cases e <;> decide

/-! ### UNPACK's progress -/

theorem codeword_length_bounds (cw : Codeword) : 4 ≤ cw.length ∧ cw.length ≤ 7 := by
  cases cw <;> simp [Codeword.length]

/-- The stream has no bits from index 28 on. -/
theorem streamFrom_past_field (c : Cell) (k : Nat) : streamFrom c (28 + k) = 0#32 := by
  have hfield : streamFrom c 28 = 0#32 := by
    rw [streamFrom, streamWord, BitVec.shiftLeft_and_distrib, show (0xFFFFFFF0#32 : Cell) <<< 28 = 0#32 from rfl,
      BitVec.and_zero]
  rw [streamFrom_add, hfield, BitVec.zero_shiftLeft]

theorem pos_lt_of_streamFrom_ne_zero {c : Cell} {pos : Nat} (h : streamFrom c pos ≠ 0#32) : pos < 28 := by
  by_contra hge
  rw [show pos = 28 + (pos - 28) by omega] at h
  exact h (streamFrom_past_field c _)

theorem unpackFrom_length_le (fuel : Nat) (w : BitVec 32) : (unpackFrom fuel w).length ≤ fuel := by
  induction fuel generalizing w with
  | zero => exact Nat.le_refl 0
  | succ fuel ih =>
    rw [unpackFrom]
    split
    · exact Nat.zero_le _
    · exact Nat.succ_le_succ (ih _)

/-- A text token holds at most 7 positions (R15, R16). -/
theorem unpack_length_le (c : Cell) : (unpack c).length ≤ 7 := unpackFrom_length_le _ _

/-! ### What keeps the invariant -/

section Invariant

variable {s t : State}

theorem host_inv (h : s.Inv) (moves : List HostMove) : { s with host := moves }.Inv := { h with }

theorem hostLoad_inv (h : s.Inv) (a : Nat) (c : Cell) : (hostLoad a c s).Inv :=
  { h with storeCanonical := write_wf s.store a c h.storeCanonical }

theorem raise_inv (h : s.Inv) {e : ErrorKind} {info : Nat} (he : legalStatus (errorStatus e info)) : (raise e info s).Inv :=
  { h with statusLegal := he }

/-- The end of a codec command leaves NB and POS in the ranges of R17, whatever they were. -/
theorem releaseCodec_inv (h : s.Inv) (hu : s.unpacking = false) : (releaseCodec s).Inv :=
  { h with
    nbBound := Nat.le_of_lt_succ (Config.freeNb s.freeCtr).isLt
    posBound := Nat.le_of_lt_succ (Config.freePos s.freeCtr).isLt
    unpackProgress := fun hu' => absurd hu' (by simp [hu]) }

theorem endUnpack_inv (h : s.Inv) (hshort : s.unpackOut.length ≤ 7) : (endUnpack s).Inv := by
  have hdone : { s with unpacking := false, resSyms := s.unpackOut, status := okStatus }.Inv :=
    { h with
      oneCommand := nofun
      statusLegal := okStatus_legal
      resSymsShort := hshort
      unpackProgress := nofun }
  exact releaseCodec_inv hdone rfl

/-- A codeword is taken below index 28 only: POS ends at most at 34, and at 4 bits a symbol no more than 7 symbols fit. -/
theorem takeCodeword_inv (h : s.Inv) (hpos : s.pos < 28) (cw : Codeword) : (takeCodeword cw s).Inv := by
  obtain ⟨hmin, hmax⟩ := codeword_length_bounds cw
  refine
    { h with
      posBound := ?_
      unpackProgress := fun hu => ?_ }
  · rw [takeCodeword_pos]
    omega
  · obtain ⟨hbits, -⟩ := h.unpackProgress hu
    rw [takeCodeword_pos, takeCodeword_unpackOut, List.length_append, List.length_singleton]
    omega

theorem enter_inv (h : s.Inv) (hu : s.unpacking = false) {view : View} {n : Nat} (hview : 256 * n + 256 ≤ view.len) :
    (enter view n s).Inv :=
  { h with
    oneCommand := fun hu' => absurd hu' (by simp [hu])
    idxInWindow := Nat.zero_le _
    defcntCounted := Nat.le_refl _
    windowInView := fun _ => hview }

theorem endRun_inv (h : s.Inv) (r : EndKind) : (endRun r s).Inv :=
  { h with
    oneCommand := fun _ => rfl
    windowInView := nofun
    statusLegal := runStatus_legal r }

theorem emit_inv (h : s.Inv) (evs : List Event) : (emit evs s).Inv := { h with }

/-- Below the window's end neither 9-bit register wraps. -/
theorem toNat_add_one {x : BitVec 9} (hx : x.toNat < 256) : (x + 1#9).toNat = x.toNat + 1 := by bv_omega

theorem advanceIdx_inv (h : s.Inv) (hidx : s.idx.toNat < 256) : (advanceIdx s).Inv := by
  have hcount := h.defcntCounted
  refine { h with idxInWindow := ?_, defcntCounted := ?_ }
  · rw [advanceIdx_idx, toNat_add_one hidx]
    omega
  · rw [advanceIdx_idx, advanceIdx_defcnt, toNat_add_one hidx]
    omega

/-- DEFCNT and IDX rise together in the tag-3 arm, so DEFCNT does not pass the cells read. -/
theorem definitionArm_inv (h : s.Inv) (hidx : s.idx.toNat < 256) (c : Cell) : (advanceIdx (definitionArm c s)).Inv := by
  have hcount := h.defcntCounted
  refine { h with idxInWindow := ?_, defcntCounted := ?_ }
  · rw [advanceIdx_idx, definitionArm_idx, toNat_add_one hidx]
    omega
  · rw [advanceIdx_idx, advanceIdx_defcnt, definitionArm_idx, definitionArm_defcnt, toNat_add_one hidx,
      toNat_add_one (by omega)]
    omega

theorem armEffect_inv (h : s.Inv) (hidx : s.idx ≠ 256#9) {c : Cell} (harm : ArmEffect c s t) : t.Inv := by
  have hlt : s.idx.toNat < 256 :=
    Nat.lt_of_le_of_ne h.idxInWindow fun heq => hidx (BitVec.eq_of_toNat_eq heq)
  obtain ⟨-, rfl⟩ | ⟨-, rfl⟩ | ⟨-, -, k, rfl⟩ | ⟨-, -, k, rfl⟩ := harm
  · exact advanceIdx_inv h hlt
  · exact definitionArm_inv h hlt c
  · exact advanceIdx_inv (emit_inv h _) hlt
  · exact advanceIdx_inv (emit_inv h _) hlt

theorem reset_inv : State.reset.Inv := by constructor <;> decide

/-- Power-on is a reset that keeps the store (70_reset_and_hazards.md R190, R191). -/
theorem powerOn_inv (h : s.Inv) : (powerOn s).Inv := by
  have hreset : { State.reset with store := s.store, host := s.host, freeCtr := s.freeCtr }.Inv :=
    { reset_inv with storeCanonical := h.storeCanonical }
  exact releaseCodec_inv hreset rfl

/-! ### The commands keep the invariant -/

/-- `releaseCodec` forgets what the loop left in ACC and NB, so the bounds before the command are enough. -/
theorem pack_inv (h : s.Inv) (hu : s.unpacking = false) (w : List CHAR) :
    (releaseCodec (packResult (packLoop lookup w 0 PackRegs.zero) s)).Inv := by
  obtain ⟨e, j, herr, heq⟩ | ⟨r, -, -, heq⟩ | ⟨r, -, -, heq⟩ := packResult_cases (packLoop lookup w 0 PackRegs.zero) s <;>
    rw [heq]
  · have hlegal := errorStatus_legal_of_packLoop j (packLoop_error lookup w 0 PackRegs.zero e j herr).1
    exact releaseCodec_inv (raise_inv h hlegal) hu
  · have hraised : (releaseCodec (raise .emptyWord 0 s)).Inv :=
      releaseCodec_inv (raise_inv h (errorStatus_zero_legal _)) hu
    exact hraised
  · have hpacked : (releaseCodec { s with resCell := packedCell r.acc r.nb, status := okStatus }).Inv :=
      releaseCodec_inv { h with statusLegal := okStatus_legal } hu
    exact hpacked

/-- `endUnpack` forgets the loop's POS, and the whole UNPACK is one step, so only the output's length matters. -/
theorem unpack_inv (h : s.Inv) (hu : s.unpacking = false) (c : Cell) (pos : Nat) :
    (endUnpack { beginUnpack c s with unpackOut := unpack c, pos := pos }).Inv := by
  have hdone : (endUnpack { s with unpackCell := c, unpackOut := unpack c }).Inv :=
    endUnpack_inv { h with unpackProgress := fun hu' => absurd hu' (by simp [hu]) } (unpack_length_le c)
  exact hdone

theorem exec_decodeCommand_inv (h : s.Inv) (hu : s.unpacking = false) (r : Request)
    (hexec : exec (decodeCommand r) s = .next t) : t.Inv := by
  obtain hr | hr | hr | hr := Scope.decodeCommand_cases r <;> rw [hr] at hexec
  · rw [Scope.exec_pack] at hexec
    cases hexec
    exact pack_inv h hu r.word
  · obtain ⟨pos, hunpack⟩ := Scope.exec_unpack r.cell s
    rw [hunpack] at hexec
    cases hexec
    exact unpack_inv h hu r.cell pos
  · rw [Scope.exec_runBlock] at hexec
    cases hexec
    split
    · exact raise_inv h (errorStatus_zero_legal _)
    · next hin => exact enter_inv h hu (Nat.le_of_not_lt fun hlt => hin ((windowOutside_iff _ _).2 hlt))
  · rw [Scope.exec_reservedCmd] at hexec
    cases hexec
    exact raise_inv h (errorStatus_zero_legal _)

end Invariant

/-! ### What keeps two states the same to the host -/

/-- Two outcomes the host cannot tell apart: states that are the same to it, or the same fault. No step refuses. -/
inductive SameOutcome : Host.Outcome State Fault Refusal → Host.Outcome State Fault Refusal → Prop where
  | next {s t : State} (h : SameToHost s t) : SameOutcome (.next s) (.next t)
  | fault (f : Fault) : SameOutcome (.fault f) (.fault f)

theorem SameOutcome.of_next {s : State} {o : Host.Outcome State Fault Refusal} (h : SameOutcome (.next s) o) :
    ∃ t, o = .next t ∧ SameToHost s t := by
  cases h with
  | next hst => exact ⟨_, rfl, hst⟩

theorem SameOutcome.of_fault {f : Fault} {o : Host.Outcome State Fault Refusal} (h : SameOutcome (.fault f) o) :
    o = .fault f := by
  cases h with
  | fault => rfl

section Same

variable {s t : State}

theorem host_same (h : SameToHost s t) (moves : List HostMove) :
    SameToHost { s with host := moves } { t with host := moves } := { h with host := rfl }

theorem hostLoad_same (h : SameToHost s t) (a : Nat) (c : Cell) : SameToHost (hostLoad a c s) (hostLoad a c t) :=
  { h with store := congrArg (·.write a c) h.store }

theorem raise_same (h : SameToHost s t) (e : ErrorKind) (info : Nat) : SameToHost (raise e info s) (raise e info t) :=
  { h with status := rfl }

/-- The free values may differ: no command that uses them is in progress. -/
theorem releaseCodec_same (h : SameToHost s t) (hu : s.unpacking = false) : SameToHost (releaseCodec s) (releaseCodec t) :=
  { h with decoding := fun hu' => absurd hu' (by simp [hu]) }

@[simp] theorem packResult_unpacking (result : Except (ErrorKind × Nat) PackRegs) (s : State) :
    (packResult result s).unpacking = s.unpacking := by
  obtain ⟨e, j, -, h⟩ | ⟨r, -, -, h⟩ | ⟨r, -, -, h⟩ := packResult_cases result s <;> rw [h] <;> rfl

theorem packResult_same (h : SameToHost s t) (result : Except (ErrorKind × Nat) PackRegs) :
    SameToHost (packResult result s) (packResult result t) := by
  rcases result with ⟨e, j⟩ | r
  · exact raise_same h e j
  · simp only [packResult, finishPack]
    split
    · exact { h with status := rfl }
    · exact { h with resCell := rfl, status := rfl }

theorem takeCodeword_same (h : SameToHost s t) (cw : Codeword) : SameToHost (takeCodeword cw s) (takeCodeword cw t) :=
  { h with
    decoding := fun hu => by
      obtain ⟨hcell, hpos, hout⟩ := h.decoding hu
      simp [hcell, hpos, hout] }

theorem endUnpack_same (h : SameToHost s t) (hout : s.unpackOut = t.unpackOut) : SameToHost (endUnpack s) (endUnpack t) :=
  { h with
    status := rfl
    resSyms := hout
    unpacking := rfl
    decoding := nofun }

/-- `endUnpack` forgets the loop's POS, so the two loops need not have reached the same one. -/
theorem unpack_same (h : SameToHost s t) (c : Cell) (pos pos' : Nat) :
    SameToHost (endUnpack { beginUnpack c s with unpackOut := unpack c, pos := pos })
      (endUnpack { beginUnpack c t with unpackOut := unpack c, pos := pos' }) := by
  have hstart : SameToHost { beginUnpack c s with unpackOut := unpack c } { beginUnpack c t with unpackOut := unpack c } :=
    { h with unpacking := rfl, decoding := fun _ => ⟨rfl, rfl, rfl⟩ }
  have hdone := endUnpack_same hstart rfl
  exact hdone

theorem enter_same (h : SameToHost s t) (view : View) (n : Nat) : SameToHost (enter view n s) (enter view n t) :=
  { h with out := rfl, phase := rfl, running := fun _ => ⟨rfl, rfl, rfl, rfl⟩ }

theorem endRun_same (h : SameToHost s t) (r : EndKind) : SameToHost (endRun r s) (endRun r t) :=
  { h with status := rfl, phase := rfl, running := nofun }

theorem emit_same (h : SameToHost s t) (evs : List Event) : SameToHost (emit evs s) (emit evs t) :=
  { h with out := congrArg (· ++ evs) h.out }

theorem advanceIdx_same (h : SameToHost s t) : SameToHost (advanceIdx s) (advanceIdx t) :=
  { h with
    running := fun hp => by
      obtain ⟨hblk, hidx, hdefcnt, hview⟩ := h.running hp
      simp [hblk, hidx, hdefcnt, hview] }

/-- The BREAK depends on DEFCNT, which is a working register of the run. -/
theorem definitionArm_same (h : SameToHost s t) (hp : s.phase = .running) (c : Cell) :
    SameToHost (definitionArm c s) (definitionArm c t) := by
  obtain ⟨hblk, hidx, hdefcnt, hview⟩ := h.running hp
  have hseen : s.hasDefinition = t.hasDefinition := congrArg (· != 0#9) hdefcnt
  have hbreak : breakEvents s = breakEvents t := by rw [breakEvents, breakEvents, hseen]
  exact
    { h with
      out := by simp [h.out, hbreak]
      running := fun _ => by simp [hblk, hidx, hdefcnt, hview] }

theorem powerOn_same (h : SameToHost s t) : SameToHost (powerOn s) (powerOn t) :=
  { status := rfl
    resCell := rfl
    resSyms := rfl
    out := rfl
    store := h.store
    host := h.host
    unpacking := rfl
    phase := rfl
    running := nofun
    decoding := nofun }

/-! ### The three situations of a step -/

theorem stepUnpack_same (h : SameToHost s t) (hu : s.unpacking = true) : SameOutcome (stepUnpack s) (stepUnpack t) := by
  obtain ⟨hcell, hpos, hout⟩ := h.decoding hu
  simp only [stepUnpack, ← hcell, ← hpos]
  split
  · exact .next (endUnpack_same h hout)
  · simp only [exec_decodeCodeword]
    exact .next (takeCodeword_same h _)

/-- A cell does the same in two runs the host cannot tell apart. -/
def CellSame (i : Instr) : Prop :=
  ∀ s t : State, SameToHost s t → s.phase = .running → SameOutcome (exec i s) (exec i t)

theorem textCell_same {i : Instr} {k : Option ColourClass} {c : Cell}
    (hexec : ∀ s, exec i s = .next (advanceIdx (textArm k c s))) : CellSame i := by
  intro s t h _
  rw [hexec, hexec]
  exact .next (advanceIdx_same (emit_same h _))

theorem numCell_same {i : Instr} {k : ColourClass} {c : Cell}
    (hexec : ∀ s, exec i s = .next (advanceIdx (numArm k c s))) : CellSame i := by
  intro s t h _
  rw [hexec, hexec]
  exact .next (advanceIdx_same (emit_same h _))

theorem decodeTagged_same (c : Cell) : CellSame (decodeTagged c) := by
  unfold decodeTagged
  split
  · exact fun _ _ h _ => .next (advanceIdx_same h)
  · exact textCell_same fun _ => rfl
  · exact numCell_same fun _ => rfl
  · exact fun _ _ h hp => .next (advanceIdx_same (definitionArm_same h hp _))
  · exact textCell_same fun _ => rfl
  · exact numCell_same fun _ => rfl
  · exact numCell_same fun _ => rfl
  · exact textCell_same fun _ => rfl
  · exact numCell_same fun _ => rfl
  · exact textCell_same fun _ => rfl
  · exact textCell_same fun _ => rfl
  · exact textCell_same fun _ => rfl
  · exact textCell_same fun _ => rfl
  · exact textCell_same fun _ => rfl
  · exact textCell_same fun _ => rfl
  · exact numCell_same fun _ => rfl

theorem decodeCell_same (c : Cell) : CellSame (decodeCell c) := by
  unfold decodeCell
  split
  · exact fun _ _ h _ => .next (endRun_same h .sentinel)
  · exact decodeTagged_same c

theorem memRead_same (h : SameToHost s t) (hp : s.phase = .running) (a : Nat) : memRead s a = memRead t a := by
  obtain ⟨-, -, -, hview⟩ := h.running hp
  simp only [memRead, hview, h.store]

theorem nextCellIndex_same (h : SameToHost s t) (hp : s.phase = .running) : nextCellIndex s = nextCellIndex t := by
  obtain ⟨hblk, hidx, -, -⟩ := h.running hp
  simp only [nextCellIndex, hblk, hidx]

theorem stepBlock_same (h : SameToHost s t) (hp : s.phase = .running) : SameOutcome (stepBlock s) (stepBlock t) := by
  obtain ⟨-, hidx, -, -⟩ := h.running hp
  simp only [stepBlock, ← hidx, ← nextCellIndex_same h hp, ← memRead_same h hp]
  split
  · exact .next (endRun_same h .windowEnd)
  · cases memRead s (nextCellIndex s) with
    | error f => exact .fault f
    | ok c => exact decodeCell_same c s t h hp

theorem exec_decodeCommand_same (h : SameToHost s t) (hu : s.unpacking = false) (r : Request) :
    SameOutcome (exec (decodeCommand r) s) (exec (decodeCommand r) t) := by
  obtain hr | hr | hr | hr := Scope.decodeCommand_cases r <;> rw [hr]
  · have hpacked := packResult_same h (packLoop lookup r.word 0 PackRegs.zero)
    exact .next (releaseCodec_same hpacked ((packResult_unpacking _ s).trans hu))
  · obtain ⟨pos, hs⟩ := Scope.exec_unpack r.cell s
    obtain ⟨pos', ht⟩ := Scope.exec_unpack r.cell t
    rw [hs, ht]
    exact .next (unpack_same h r.cell pos pos')
  · simp only [Scope.exec_runBlock]
    split
    · exact .next (raise_same h _ _)
    · exact .next (enter_same h _ _)
  · exact .next (raise_same h _ _)

theorem stepIdle_same (h : SameToHost s t) (hu : s.unpacking = false) : SameOutcome (stepIdle s) (stepIdle t) := by
  simp only [stepIdle, ← h.host]
  rcases s.host with _ | ⟨move, rest⟩
  · exact .next h
  · cases move with
    | issue r => exact exec_decodeCommand_same (host_same h rest) hu r
    | load a c => exact .next (hostLoad_same (host_same h rest) a c)
    | powerOn => exact .next (powerOn_same (host_same h rest))

/-- Two states the host cannot tell apart are in the same situation and step alike in it. -/
theorem step_same (h : SameToHost s t) : SameOutcome (step s) (step t) := by
  cases hu : s.unpacking with
  | true =>
    rw [step_of_unpacking s hu, step_of_unpacking t (h.unpacking ▸ hu)]
    exact stepUnpack_same h hu
  | false =>
    cases hp : s.phase with
    | running =>
      rw [step_of_running s hu hp, step_of_running t (h.unpacking ▸ hu) (h.phase ▸ hp)]
      exact stepBlock_same h hp
    | idle =>
      rw [step_of_idle s hu hp, step_of_idle t (h.unpacking ▸ hu) (h.phase ▸ hp)]
      exact stepIdle_same h hu

end Same

/-! ### The obligations -/

/-- Settles O1: the order is the table's own text; that no symbol stands twice is a finite check. -/
theorem letterTableOrder : Obligations.LetterTableOrder :=
  ⟨rfl, rfl, Scope.letterTable_nodup, Scope.letterTable_get⟩

/-- Settles O40: each field reads back from the number that R14's weights give. -/
theorem statusFields : Obligations.StatusFields := fun code e symidx =>
  ⟨statusCode_mkStatus code e symidx, statusEnd_mkStatus code e symidx, statusSymidx_mkStatus code e symidx,
    mkStatus_toNat code e symidx⟩

/-- Settles O42, by the cases of a step. -/
theorem stepKeepsInvariant : Obligations.StepKeepsInvariant := by
  intro s t h hstep
  obtain ⟨hu, -, rfl⟩ | ⟨-, hbits, rfl⟩ | ⟨-, -, -, rfl⟩ | ⟨-, -, -, -, rfl⟩ | ⟨-, -, hidx, c, -, -, harm⟩ |
    ⟨-, -, -, rfl⟩ | ⟨hu, -, r, rest, -, hexec⟩ | ⟨-, -, a, c, rest, -, rfl⟩ | ⟨-, -, rest, -, rfl⟩ := step_cases s t hstep
  · exact endUnpack_inv h (h.unpackProgress hu).2
  · exact takeCodeword_inv h (pos_lt_of_streamFrom_ne_zero hbits) _
  · exact endRun_inv h _
  · exact endRun_inv h _
  · exact armEffect_inv h hidx harm
  · exact h
  · exact exec_decodeCommand_inv (host_inv h rest) hu r hexec
  · exact hostLoad_inv (host_inv h rest) a c
  · exact powerOn_inv (host_inv h rest)

/-- Settles O52: a step's outcome is the same to the host, so a next state answers a next state and a fault the same fault. -/
theorem hiddenStateUnobservable : Obligations.HiddenStateUnobservable := by
  refine fun s t h => ⟨fun s' hs => ?_, fun f hf => ?_⟩
  · exact SameOutcome.of_next (hs ▸ step_same h)
  · exact SameOutcome.of_fault (hf ▸ step_same h)

end Sys2Proof.Registers
end

-- ==== Proofs of 20_memory.md ====
section
/-! PROOFS. The statements of 20_memory.md: what the host writes to the Cell Store is read back (R30, R42), and no read of the
RPD leaves the view (R33, R38). -/

open Sys2Proof Sys2Proof.Machine

namespace Sys2Proof.CellStore

/-! ### Reading the store after a write -/

/-- The host's write puts the cell at its own index and no other; the canonical form is not needed, since a read takes the
first entry of an index. -/
theorem read_write (m : Memory) (a b : Nat) (c : Cell) : (m.write a c).read b = if b = a then some c else m.read b := by
  induction m with
  | nil => rfl
  | cons e rest ih =>
    obtain ⟨i, d⟩ := e
    simp only [Memory.write]
    split
    · simp only [Memory.read]
    · split
      · next hai =>
        subst hai
        by_cases hb : b = a <;> simp [Memory.read, hb]
      · next hai =>
        simp only [Memory.read, ih]
        by_cases hb : b = i
        · rw [if_pos hb, if_pos hb, if_neg (by omega)]
        · rw [if_neg hb, if_neg hb]

/-! ### The host's load -/

/-- The idle RPD makes the host's load move. -/
theorem step_load {s : State} (hidle : s.isIdle) {a : Nat} {c : Cell} {rest : List HostMove}
    (hhost : s.host = .load a c :: rest) : step s = .next (hostLoad a c { s with host := rest }) := by
  rw [step_of_idle s hidle.1 hidle.2]
  simp only [stepIdle, hhost]

/-! ### What can stop a step -/

/-- Every cell's instruction answers a next state. -/
theorem exec_decodeCell_next (c : Cell) (s : State) : ∃ t, exec (decodeCell c) s = .next t := by
  by_cases hc : c = 0#32
  · exact ⟨_, hc ▸ exec_decodeCell_zero s⟩
  · obtain ⟨t, ht, -⟩ := exec_decodeCell_nonzero c s hc
    exact ⟨t, ht⟩

/-- Every command answers a next state: its errors are completions (60_exceptions.md R170). -/
theorem exec_decodeCommand_next (r : Request) (s : State) : ∃ t, exec (decodeCommand r) s = .next t := by
  obtain hr | hr | hr | hr := Scope.decodeCommand_cases r <;> rw [hr]
  · exact ⟨_, Scope.exec_pack r.word s⟩
  · obtain ⟨pos, hu⟩ := Scope.exec_unpack r.cell s
    exact ⟨_, hu⟩
  · exact ⟨_, Scope.exec_runBlock r.view r.block s⟩
  · exact ⟨_, Scope.exec_reservedCmd s⟩

theorem stepUnpack_next (s : State) : ∃ t, stepUnpack s = .next t := by
  unfold stepUnpack
  split
  · exact ⟨_, rfl⟩
  · exact ⟨_, exec_decodeCodeword _ s⟩

theorem stepIdle_next (s : State) : ∃ t, stepIdle s = .next t := by
  unfold stepIdle
  split
  · exact ⟨_, rfl⟩
  · exact exec_decodeCommand_next _ _
  · exact ⟨_, rfl⟩
  · exact ⟨_, rfl⟩

theorem stepBlock_next_or_fault (s : State) :
    (∃ t, stepBlock s = .next t) ∨
    (s.idx ≠ 256#9 ∧ ∃ f, memRead s (nextCellIndex s) = .error f ∧ stepBlock s = .fault f) := by
  unfold stepBlock
  split
  · exact .inl ⟨_, rfl⟩
  · next hidx =>
    cases hread : memRead s (nextCellIndex s) with
    | error f => exact .inr ⟨hidx, f, rfl, rfl⟩
    | ok c => exact .inl (exec_decodeCell_next c s)

/-- A step answers a next state, or a run in progress stops at the read of its next cell. With `step_cases` this is everything
a step can do. -/
theorem step_next_or_fault (s : State) :
    (∃ t, step s = .next t) ∨
    (s.phase = .running ∧ s.idx ≠ 256#9 ∧ ∃ f, memRead s (nextCellIndex s) = .error f ∧ step s = .fault f) := by
  cases hu : s.unpacking with
  | true => exact .inl (step_of_unpacking s hu ▸ stepUnpack_next s)
  | false =>
    cases hp : s.phase with
    | idle => exact .inl (step_of_idle s hu hp ▸ stepIdle_next s)
    | running =>
      rw [step_of_running s hu hp]
      obtain hnext | ⟨hidx, hfault⟩ := stepBlock_next_or_fault s
      · exact .inl hnext
      · exact .inr ⟨rfl, hidx, hfault⟩

/-! ### The next cell of a run -/

/-- Before its window is used up, a run's next cell is inside the view: this is what the range check of R130 gives. -/
theorem nextCellIndex_lt {s : State} (h : s.Inv) (hp : s.phase = .running) (hidx : s.idx ≠ 256#9) :
    nextCellIndex s < s.view.len := by
  have hwindow : 256 * s.blk + 256 ≤ s.view.len := h.windowInView hp
  have hlt : s.idx.toNat < 256 :=
    lt_of_le_of_ne h.idxInWindow fun heq => hidx (BitVec.eq_of_toNat_eq heq)
  show 256 * s.blk + s.idx.toNat < s.view.len
  omega

/-- In a state of the invariant a step stops only because the store lacks an element that the view names. -/
theorem step_next_or_outsideStore {s : State} (h : s.Inv) :
    (∃ t, step s = .next t) ∨
    (s.phase = .running ∧ step s = .fault (.outsideStore (s.view.base + nextCellIndex s)) ∧ ¬ s.viewInStore) := by
  obtain hnext | ⟨hp, hidx, f, hread, hfault⟩ := step_next_or_fault s
  · exact .inl hnext
  · have hlt := nextCellIndex_lt h hp hidx
    obtain ⟨-, hout⟩ | ⟨rfl, hnone⟩ := memRead_error s _ f hread
    · exact absurd hlt (Nat.not_lt.2 hout)
    · refine .inr ⟨hp, hfault, fun hstore => ?_⟩
      have hsome := hstore _ hlt
      rw [hnone] at hsome
      exact Bool.noConfusion hsome

/-! ### The obligations -/

/-- Settles O45, by induction over the store's list. -/
theorem storeReadAfterWrite : Obligations.StoreReadAfterWrite := read_write

/-- Settles O46: the load move's state is the old one but for the move made and the cell written. -/
theorem hostLoadSeen : Obligations.HostLoadSeen := fun s a c _ hidle hhost =>
  ⟨_, step_load hidle hhost, rfl, fun b => read_write s.store a b c⟩

/-- Settles O50: the one way a step can stop is neither a read outside the view nor possible under the host's duty. -/
theorem readsStayInView : Obligations.ReadsStayInView := by
  intro s h
  obtain ⟨t, hnext⟩ | ⟨hp, hfault, hnot⟩ := step_next_or_outsideStore h
  · exact ⟨fun a => by rw [hnext]; nofun, fun _ => ⟨t, hnext⟩⟩
  · exact ⟨fun a => by rw [hfault]; nofun, fun hduty => absurd (hduty hp) hnot⟩

end Sys2Proof.CellStore
end

-- ==== Proofs of 30_encoding.md ====
section
/-! PROOFS. The statements of 30_encoding.md: the codewords' formats and how one is found at the front of a stream (R55 to
R58), decoding and encoding of commands, cells and codewords (R50 to R53, R61), and what a step decodes. -/

open Sys2Proof Sys2Proof.Machine

namespace Sys2Proof.Encodings

/-! ### Positions and codewords -/

theorem codewordOf_of_lt_8 {p : Position} (h : p.val < 8) : codewordOf p = .cw4 (BitVec.ofNat 3 p.val) := if_pos h

theorem codewordOf_of_lt_16 {p : Position} (hlo : 8 ≤ p.val) (hhi : p.val < 16) :
    codewordOf p = .cw5 (BitVec.ofNat 3 (p.val - 8)) := by
  rw [codewordOf, if_neg (Nat.not_lt.2 hlo), if_pos hhi]

theorem codewordOf_of_ge_16 {p : Position} (h : 16 ≤ p.val) : codewordOf p = .cw7 (BitVec.ofNat 5 (p.val - 16)) := by
  rw [codewordOf, if_neg (by omega), if_neg (Nat.not_lt.2 h)]

theorem value_cw4 (suffix : BitVec 3) : (Codeword.cw4 suffix).value = suffix.toNat := by
  have hlt := suffix.isLt
  simp only [Codeword.value, BitVec.toNat_append, ← Nat.shiftLeft_add_eq_or_of_lt hlt]
  simp

theorem value_cw5 (suffix : BitVec 3) : (Codeword.cw5 suffix).value = 16 + suffix.toNat := by
  have hlt := suffix.isLt
  simp only [Codeword.value, BitVec.toNat_append, ← Nat.shiftLeft_add_eq_or_of_lt hlt]
  simp

theorem value_cw7 (suffix : BitVec 5) : (Codeword.cw7 suffix).value = 96 + suffix.toNat := by
  have hlt := suffix.isLt
  simp only [Codeword.value, BitVec.toNat_append, ← Nat.shiftLeft_add_eq_or_of_lt hlt]
  simp

theorem value_lt (cw : Codeword) : cw.value < 2 ^ cw.length := by
  cases cw <;> exact BitVec.isLt _

/-- SYMBOL_OF undoes the table's codeword (40_letter_table.md R82). -/
@[simp] theorem symbolOf_codewordOf (p : Position) : symbolOf (codewordOf p) = p := by
  obtain ⟨n, hn⟩ := p
  apply Fin.ext
  obtain h | ⟨hlo, hhi⟩ | h : n < 8 ∨ (8 ≤ n ∧ n < 16) ∨ 16 ≤ n := by omega
  · simp only [codewordOf_of_lt_8 (p := ⟨n, hn⟩) h, symbolOf, BitVec.toNat_ofNat]
    omega
  · simp only [codewordOf_of_lt_16 (p := ⟨n, hn⟩) hlo hhi, symbolOf, BitVec.toNat_ofNat]
    omega
  · simp only [codewordOf_of_ge_16 (p := ⟨n, hn⟩) h, symbolOf, BitVec.toNat_ofNat]
    omega

/-- Every codeword is the codeword of the position it names. -/
@[simp] theorem codewordOf_symbolOf (cw : Codeword) : codewordOf (symbolOf cw) = cw := by
  cases cw with
  | cw4 suffix =>
    rw [codewordOf_of_lt_8 (show suffix.toNat < 8 from suffix.isLt)]
    simp [symbolOf]
  | cw5 suffix =>
    have hlt := suffix.isLt
    rw [codewordOf_of_lt_16 (by simp [symbolOf]) (by simp only [symbolOf]; omega)]
    simp [symbolOf]
  | cw7 suffix =>
    rw [codewordOf_of_ge_16 (by simp [symbolOf])]
    simp [symbolOf]

/-! ### The codeword at the front of a stream -/

/-- The first bits of a seven-bit window, its highest, are those of a codeword. -/
def StartsWith (window : BitVec 7) (cw : Codeword) : Prop :=
  ∀ j < cw.length, window.getLsbD (7 - cw.length + j) = cw.value.testBit j

theorem startsWith_cw4_iff (window : BitVec 7) (suffix : BitVec 3) :
    StartsWith window (.cw4 suffix) ↔ window.getLsbD 6 = false ∧ window.extractLsb' 3 3 = suffix := by
  have hbit (j : Nat) : (Codeword.cw4 suffix).value.testBit j =
      if j < 3 then suffix.getLsbD j else (0b0#1).getLsbD (j - 3) := by
    rw [Codeword.value, BitVec.testBit_toNat, BitVec.getLsbD_append]
  simp only [StartsWith, Codeword.length, hbit]
  constructor
  · refine fun h => ⟨h 3 (by decide), BitVec.eq_of_getLsbD_eq fun j hj => ?_⟩
    simpa [hj] using h j (by omega)
  · rintro ⟨h6, rfl⟩ j hj
    obtain rfl | hj : j = 3 ∨ j < 3 := by omega
    · exact h6
    · simp [hj]

theorem startsWith_cw5_iff (window : BitVec 7) (suffix : BitVec 3) :
    StartsWith window (.cw5 suffix) ↔
      window.getLsbD 6 = true ∧ window.getLsbD 5 = false ∧ window.extractLsb' 2 3 = suffix := by
  have hbit (j : Nat) : (Codeword.cw5 suffix).value.testBit j =
      if j < 3 then suffix.getLsbD j else (0b10#2).getLsbD (j - 3) := by
    rw [Codeword.value, BitVec.testBit_toNat, BitVec.getLsbD_append]
  simp only [StartsWith, Codeword.length, hbit]
  constructor
  · refine fun h => ⟨h 4 (by decide), h 3 (by decide), BitVec.eq_of_getLsbD_eq fun j hj => ?_⟩
    simpa [hj] using h j (by omega)
  · rintro ⟨h6, h5, rfl⟩ j hj
    obtain rfl | rfl | hj : j = 4 ∨ j = 3 ∨ j < 3 := by omega
    · exact h6
    · exact h5
    · simp [hj]

theorem startsWith_cw7_iff (window : BitVec 7) (suffix : BitVec 5) :
    StartsWith window (.cw7 suffix) ↔
      window.getLsbD 6 = true ∧ window.getLsbD 5 = true ∧ window.extractLsb' 0 5 = suffix := by
  have hbit (j : Nat) : (Codeword.cw7 suffix).value.testBit j =
      if j < 5 then suffix.getLsbD j else (0b11#2).getLsbD (j - 5) := by
    rw [Codeword.value, BitVec.testBit_toNat, BitVec.getLsbD_append]
  simp only [StartsWith, Codeword.length, hbit]
  constructor
  · refine fun h => ⟨h 6 (by decide), h 5 (by decide), BitVec.eq_of_getLsbD_eq fun j hj => ?_⟩
    simpa [hj] using h j (by omega)
  · rintro ⟨h6, h5, rfl⟩ j hj
    obtain rfl | rfl | hj : j = 6 ∨ j = 5 ∨ j < 5 := by omega
    · exact h6
    · exact h5
    · simp [hj]

/-- Seven bits start with exactly one codeword, the one CLASSIFY gives (30_encoding.md R57; 41_word_codec.md R111). -/
theorem startsWith_iff (window : BitVec 7) (cw : Codeword) : StartsWith window cw ↔ classify window = cw := by
  simp only [classify]
  cases cw with
  | cw4 suffix =>
    rw [startsWith_cw4_iff]
    cases window.getLsbD 6 <;> cases window.getLsbD 5 <;> simp
  | cw5 suffix =>
    rw [startsWith_cw5_iff]
    cases window.getLsbD 6 <;> cases window.getLsbD 5 <;> simp
  | cw7 suffix =>
    rw [startsWith_cw7_iff]
    cases window.getLsbD 6 <;> cases window.getLsbD 5 <;> simp

/-- A codeword put in a window stands at its front, whatever bits follow it. -/
theorem startsWith_codewordWindow (cw : Codeword) (rest : BitVec 7) :
    StartsWith (codewordWindow cw.length cw.value ||| rest >>> cw.length) cw := by
  have hlen := (Registers.codeword_length_bounds cw).2
  intro j hj
  have hrest : rest.getLsbD (cw.length + (7 - cw.length + j)) = false := BitVec.getLsbD_of_ge _ _ (by omega)
  have hfit : 7 - cw.length + j < 7 := by omega
  rw [BitVec.getLsbD_or, BitVec.getLsbD_ushiftRight, hrest, codewordWindow, BitVec.getLsbD_ofNat, Nat.testBit_mul_two_pow]
  simp [hfit]

theorem classify_codewordWindow (cw : Codeword) (rest : BitVec 7) :
    classify (codewordWindow cw.length cw.value ||| rest >>> cw.length) = cw :=
  (startsWith_iff _ _).1 (startsWith_codewordWindow cw rest)

/-! ### Codeword bits at the front of seven bits -/

/-- The seven bits of a window, the first of the stream first. -/
def windowBits (window : BitVec 7) : List Bool := (List.range 7).map fun k => window.getLsbD (6 - k)

theorem codewordBits_prefix_iff (p : Position) (window : BitVec 7) :
    codewordBits p <+: windowBits window ↔ classify window = codewordOf p := by
  have hlen := (Registers.codeword_length_bounds (codewordOf p)).2
  rw [← startsWith_iff, List.prefix_iff_getElem]
  simp only [codewordBits, windowBits, List.length_map, List.length_range, List.getElem_map, List.getElem_range]
  constructor
  · rintro ⟨-, h⟩ j hj
    have hk := h ((codewordOf p).length - 1 - j) (by omega)
    rw [show 7 - (codewordOf p).length + j = 6 - ((codewordOf p).length - 1 - j) by omega, ← hk]
    congr 1
    omega
  · refine fun h => ⟨hlen, fun k hk => ?_⟩
    rw [← h _ (by omega)]
    congr 1
    omega

/-! ### The instructions of the codewords -/

theorem decodeCodeword_of_classify {window : BitVec 7} {p : Position} (h : classify window = codewordOf p) :
    decodeCodeword window = symInstr p := by
  rw [decodeCodeword, h, symbolOf_codewordOf]

/-- A codeword by itself, with the zeros of `codewordWindow` behind it, is decoded. -/
theorem decode_codewordOf (p : Position) :
    decode (.codeword (codewordOf p).length (codewordOf p).value) = .ok (symInstr p) := by
  have hclassify : classify (codewordWindow (codewordOf p).length (codewordOf p).value) = codewordOf p := by
    simpa using classify_codewordWindow (codewordOf p) 0#7
  simp only [decode]
  rw [if_pos ⟨congrArg Codeword.length hclassify, value_lt _⟩, decodeCodeword_of_classify hclassify]

/-- The encoder's codewords are those of R80, in the order of its positions: a check of 48 rows. -/
theorem encode_symInstr (p : Position) : encode (symInstr p) = .codeword (codewordOf p).length (codewordOf p).value := by
  revert p
  decide

theorem decode_encode_of_symInstr {i : Instr} (h : ∃ p, symInstr p = i) : decode (encode i) = .ok i := by
  obtain ⟨p, rfl⟩ := h
  rw [encode_symInstr, decode_codewordOf]

/-! ### The instructions of the cells -/

theorem decodeCell_of_ne_zero {c : Cell} (h : c ≠ 0#32) : decodeCell c = decodeTagged c := if_neg h

/-- Only the all-zero cell is the sentinel, so a nonzero tag is enough. -/
theorem decodeCell_of_cellTag_ne_zero {c : Cell} (h : cellTag c ≠ 0#4) : decodeCell c = decodeTagged c :=
  decodeCell_of_ne_zero fun hc => h (by rw [hc]; rfl)

theorem decodeCell_skip {payload : BitVec 28} (h : payload ≠ 0#28) :
    decodeCell (textCell payload 0#4) = .cellTag0Skip payload := by
  have hne : textCell payload 0#4 ≠ 0#32 := fun hz => h (by
    rw [← cellPayload_textCell payload 0#4, hz]
    rfl)
  rw [decodeCell_of_ne_zero hne]
  simp [decodeTagged]

theorem decode_textCell (payload : BitVec 28) {tag : BitVec 4} (h : tag ≠ 0#4) :
    decode (.cell (textCell payload tag)) = .ok (decodeTagged (textCell payload tag)) :=
  congrArg Except.ok (decodeCell_of_cellTag_ne_zero (by rwa [cellTag_textCell]))

theorem decode_numCell (value : BitVec 27) (bit4 : BitVec 1) {tag : BitVec 4} (h : tag ≠ 0#4) :
    decode (.cell (numCell value bit4 tag)) = .ok (decodeTagged (numCell value bit4 tag)) :=
  congrArg Except.ok (decodeCell_of_cellTag_ne_zero (by rwa [cellTag_numCell]))

theorem textCell_of_tag {c : Cell} {tag : BitVec 4} (h : (cellTag c).toNat = tag.toNat) :
    textCell (cellPayload c) tag = c :=
  BitVec.eq_of_toNat_eq h ▸ textCell_fields c

theorem numCell_of_tag {c : Cell} {tag : BitVec 4} (h : (cellTag c).toNat = tag.toNat) :
    numCell (cellValue c) (cellBit4 c) tag = c :=
  BitVec.eq_of_toNat_eq h ▸ numCell_fields c

theorem cellTag0Skip_wellFormed {c : Cell} (hc : c ≠ 0#32) (h : (cellTag c).toNat = 0) :
    (Instr.cellTag0Skip (cellPayload c)).WellFormed := by
  refine bne_iff_ne.2 fun hpayload => hc ?_
  have hfields := textCell_of_tag (tag := 0#4) h
  rw [hpayload] at hfields
  exact hfields.symm

/-- Each arm keeps all of a cell's bits: its tag names the arm, and payload, or value and bit 4, are the rest. -/
theorem decodeTagged_encodes {c : Cell} (hc : c ≠ 0#32) :
    (decodeTagged c).WellFormed ∧ encode (decodeTagged c) = .cell c := by
  have hlt := (cellTag c).isLt
  unfold decodeTagged
  split
  · next h => exact ⟨cellTag0Skip_wellFormed hc h, congrArg Encoding.cell (textCell_of_tag h)⟩
  · next h => exact ⟨rfl, congrArg Encoding.cell (textCell_of_tag h)⟩
  · next h => exact ⟨rfl, congrArg Encoding.cell (numCell_of_tag h)⟩
  · next h => exact ⟨rfl, congrArg Encoding.cell (textCell_of_tag h)⟩
  · next h => exact ⟨rfl, congrArg Encoding.cell (textCell_of_tag h)⟩
  · next h => exact ⟨rfl, congrArg Encoding.cell (numCell_of_tag h)⟩
  · next h => exact ⟨rfl, congrArg Encoding.cell (numCell_of_tag h)⟩
  · next h => exact ⟨rfl, congrArg Encoding.cell (textCell_of_tag h)⟩
  · next h => exact ⟨rfl, congrArg Encoding.cell (numCell_of_tag h)⟩
  · next h => exact ⟨rfl, congrArg Encoding.cell (textCell_of_tag h)⟩
  · next h => exact ⟨rfl, congrArg Encoding.cell (textCell_of_tag h)⟩
  · next h => exact ⟨rfl, congrArg Encoding.cell (textCell_of_tag h)⟩
  · next h => exact ⟨rfl, congrArg Encoding.cell (textCell_of_tag h)⟩
  · next h => exact ⟨rfl, congrArg Encoding.cell (textCell_of_tag h)⟩
  · next h => exact ⟨rfl, congrArg Encoding.cell (textCell_of_tag h)⟩
  · have h : (cellTag c).toNat = 15 := by simp only [imp_false] at *; omega
    exact ⟨rfl, congrArg Encoding.cell (numCell_of_tag h)⟩

/-! ### The numeric arms -/

/-- The tags of numeric cells (30_encoding.md R52, R53). -/
def IsNumericTag (tag : BitVec 4) : Prop := tag = 2#4 ∨ tag = 5#4 ∨ tag = 6#4 ∨ tag = 8#4 ∨ tag = 15#4

/-- A numeric cell acts by its tag and its value alone. -/
theorem exec_decodeCell_numeric {c : Cell} (h : IsNumericTag (cellTag c)) (s : State) :
    exec (decodeCell c) s =
      .next (advanceIdx (emit (colourEvents (tagMap (cellTag c)).1 ++ [.num (cellValue c), .sep]) s)) := by
  have hne : cellTag c ≠ 0#4 := fun h0 => absurd (h0 ▸ h) (by unfold IsNumericTag; decide)
  rw [decodeCell_of_cellTag_ne_zero hne]
  obtain h | h | h | h | h := h
  · simp [decodeTagged, h, exec, execCellTag2NumA, numArm, colourEvents, tagMap]
  · simp [decodeTagged, h, exec, execCellTag5NumC5, numArm, colourEvents, tagMap]
  · simp [decodeTagged, h, exec, execCellTag6NumC6, numArm, colourEvents, tagMap]
  · simp [decodeTagged, h, exec, execCellTag8NumA8, numArm, colourEvents, tagMap]
  · simp [decodeTagged, h, exec, execCellTag15NumE, numArm, colourEvents, tagMap]

/-- The mask 0x10 is cell bit 4 and no other. -/
theorem getLsbD_xor_bit4 (c : Cell) {i : Nat} (hi : i ≠ 4) : (c ^^^ 0x00000010#32).getLsbD i = c.getLsbD i := by
  have hmask : (0x00000010#32).getLsbD i = false := by
    rw [show (0x00000010#32) = BitVec.twoPow 32 4 from rfl, BitVec.getLsbD_twoPow]
    simp [Ne.symm hi]
  rw [BitVec.getLsbD_xor, hmask, Bool.xor_false]

theorem cellTag_xor_bit4 (c : Cell) : cellTag (c ^^^ 0x00000010#32) = cellTag c := by
  refine BitVec.eq_of_getLsbD_eq fun i hi => ?_
  simp only [cellTag, BitVec.getLsbD_extractLsb', getLsbD_xor_bit4 c (show 0 + i ≠ 4 by omega)]

theorem cellValue_xor_bit4 (c : Cell) : cellValue (c ^^^ 0x00000010#32) = cellValue c := by
  refine BitVec.eq_of_getLsbD_eq fun i hi => ?_
  simp only [cellValue, BitVec.getLsbD_extractLsb', getLsbD_xor_bit4 c (show 5 + i ≠ 4 by omega)]

/-! ### The obligations -/

/-- Settles O7: a command's encoding carries its operands, a cell is read by the arm of its own tag, and a codeword at the
front of a window is the one CLASSIFY finds. -/
theorem decodeEncode : Obligations.DecodeEncode := by
  intro i hwf
  cases i with
  | pack | unpack | runBlock | reservedCmd | sentinel => rfl
  | cellTag0Skip payload => exact congrArg Except.ok (decodeCell_skip (bne_iff_ne.1 hwf))
  | cellTag1TextA payload | cellTag3DefB payload | cellTag4TextC payload | cellTag7TextD payload | cellTag9TextE9 payload
  | cellTag10TextE10 payload | cellTag11TextE11 payload | cellTag12TextF payload | cellTag13TextDefault13 payload
  | cellTag14TextDefault14 payload =>
    rw [encode, decode_textCell payload (by decide)]
    simp [decodeTagged]
  | cellTag2NumA value bit4 | cellTag5NumC5 value bit4 | cellTag6NumC6 value bit4 | cellTag8NumA8 value bit4
  | cellTag15NumE value bit4 =>
    rw [encode, decode_numCell value bit4 (by decide)]
    simp [decodeTagged]
  | _ => exact decode_encode_of_symInstr (by decide)

/-- Settles O8: the all-zero cell is the sentinel's, every other cell that of its arm. -/
theorem encodeDecodeCell : Obligations.EncodeDecodeCell := by
  intro c
  by_cases hc : c = 0#32
  · subst hc
    exact ⟨rfl, rfl⟩
  · rw [decodeCell_of_ne_zero hc]
    exact decodeTagged_encodes hc

/-- Settles O32: flipping bit 4 keeps the tag and the value, and a numeric cell acts by these alone. -/
theorem numericBit4Ignored : Obligations.NumericBit4Ignored := by
  intro c s h
  have hflipped : IsNumericTag (cellTag (c ^^^ 0x00000010#32)) := (cellTag_xor_bit4 c).symm ▸ h
  rw [exec_decodeCell_numeric h, exec_decodeCell_numeric hflipped, cellTag_xor_bit4, cellValue_xor_bit4]

/-- Settles O4, by the three ranges of positions. -/
theorem codewordFormats : Obligations.CodewordFormats := by
  intro p
  have hp := p.isLt
  refine ⟨fun h => ?_, fun hlo hhi => ?_, fun h => ?_⟩
  · rw [codewordOf_of_lt_8 h, value_cw4, BitVec.toNat_ofNat]
    exact ⟨rfl, by omega⟩
  · rw [codewordOf_of_lt_16 hlo hhi, value_cw5, BitVec.toNat_ofNat]
    exact ⟨rfl, by omega⟩
  · rw [codewordOf_of_ge_16 h, value_cw7, BitVec.toNat_ofNat]
    exact ⟨rfl, by omega⟩

/-- Settles O5: a window starts with the codeword CLASSIFY gives and with no other. If one codeword starts with another, the
window of the first starts with both. -/
theorem codePrefixFreeComplete : Obligations.CodePrefixFreeComplete := by
  refine ⟨fun p q h => ?_, fun window => ?_⟩
  · have hq := classify_codewordWindow (codewordOf q) 0#7
    have hp := (codewordBits_prefix_iff p _).1 (h.trans ((codewordBits_prefix_iff q _).2 hq))
    rw [← symbolOf_codewordOf p, ← hp, hq, symbolOf_codewordOf]
  · exact ⟨symbolOf (classify window), (codewordBits_prefix_iff _ window).2 (codewordOf_symbolOf _).symm⟩

/-- Settles O6: CLASSIFY looks at no bit behind the codeword it finds. -/
theorem codewordDecodesBeforeAnything : Obligations.CodewordDecodesBeforeAnything := by
  intro p rest
  have hclassify := classify_codewordWindow (codewordOf p) rest
  exact ⟨decodeCodeword_of_classify hclassify, hclassify⟩

/-- Settles O9, by the four codes. -/
theorem commandCodes : Obligations.CommandCodes := by
  intro r
  refine ⟨fun h => ?_, fun h => ?_, fun h => ?_, fun h => ?_⟩ <;> rw [decodeCommand, h] <;> rfl

/-- Settles O36, by the three situations of a step. -/
theorem stepRunsDecoded : Obligations.StepRunsDecoded := by
  refine ⟨fun s r rest hu hp hhost => ?_, fun s c hu hp hidx hview hread => ?_, fun s hu hbits => ?_⟩
  · rw [step_of_idle s hu hp]
    simp only [stepIdle, hhost]
  · have hcell : memRead s (nextCellIndex s) = .ok c := (memRead_ok s _ c).2 ⟨hview, hread⟩
    rw [step_of_running s hu hp, stepBlock, if_neg hidx, hcell]
  · rw [step_of_unpacking s hu, stepUnpack, if_neg hbits]

end Sys2Proof.Encodings
end

-- ==== Proofs of 40_letter_table.md ====
section
/-! PROOFS. The statements of 40_letter_table.md: LOOKUP and SYMBOL_OF (R81, R82), sample words of the opcode table (R80),
and what each of the 48 codeword instructions does. -/

open Sys2Proof Sys2Proof.Machine

namespace Sys2Proof.LetterTable

/-! ### LOOKUP -/

theorem lookup_eq_some_iff (ch : CHAR) (p : Position) : lookup ch = some p ↔ symbolAt p = ch :=
  Scope.lookupIn_eq_some_iff (fun _ _ => CHAR.glyph.inj) ch p

theorem lookup_eq_none_iff (ch : CHAR) : lookup ch = none ↔ ∀ p : Position, symbolAt p ≠ ch := by
  rw [Option.eq_none_iff_forall_ne_some]
  exact forall_congr' fun p => not_congr (lookup_eq_some_iff ch p)

/-! ### Words of the opcode table -/

/-- A table word that stands for an instruction's encoding is read as that instruction (decoding undoes encoding, O7). -/
theorem decodeTableWord_of_encode {nbits w : Nat} {i : Instr} (henc : tableEncoding nbits w = some (encode i))
    (hwf : i.WellFormed) : decodeTableWord nbits w = some i := by
  rw [decodeTableWord, henc]
  exact congrArg Except.toOption (Encodings.decodeEncode i hwf)

/-! ### The codeword instructions -/

@[simp] theorem codewordBits_length (p : Position) : (codewordBits p).length = (codewordOf p).length := by
  rw [codewordBits, List.length_map, List.length_range]

/-- The instruction of a position takes the codeword of that position. -/
theorem exec_symInstr_eq_takeCodeword (p : Position) (s : State) :
    exec (symInstr p) s = .next (takeCodeword (codewordOf p) s) := by
  rw [exec_symInstr, ← runCodeword_eq, Encodings.symbolOf_codewordOf]

/-! ### The obligations -/

/-- Settles O2: LOOKUP is exact because no glyph stands twice in the table, and SYMBOL_OF undoes the codeword by the three
groups of positions. -/
theorem lookupExact : Obligations.LookupExact :=
  ⟨lookup_eq_some_iff, lookup_eq_none_iff, Encodings.symbolOf_codewordOf⟩

/-- Settles O10: each of the seven words is the encoding of its instruction. -/
theorem sampleWordsDecode : Obligations.SampleWordsDecode := by
  refine ⟨?_, ?_, ?_, ?_, ?_, ?_, ?_⟩ <;> exact decodeTableWord_of_encode rfl rfl

/-- Settles O23: the list is that of R80, row by row, and a codeword's instruction takes the codeword. -/
theorem codewordsTaken : Obligations.CodewordsTaken := by
  refine ⟨rfl, fun p s => ?_⟩
  rw [exec_symInstr_eq_takeCodeword, takeCodeword, Encodings.symbolOf_codewordOf, codewordBits_length]

end Sys2Proof.LetterTable
end

-- ==== Proofs of 41_word_codec.md ====
section
/-! PROOFS. The statements of 41_word_codec.md: the stream in UNPACK's shift register (R110, R111), UNPACK's loop (R110, R113,
R114), PACK's accumulation and its cell (R100 to R102), and the round trip (R112, R115). -/

open Sys2Proof Sys2Proof.Machine

namespace Sys2Proof.WordCodec

/-! ### The stream in the shift register -/

/-- The mask 0xFFFFFFF0 clears the tag's four bits and no other. -/
theorem streamWord_getLsbD (c : Cell) {i : Nat} (hi : i < 32) :
    (streamWord c).getLsbD i = (decide (4 ≤ i) && c.getLsbD i) := by
  have hmask : (0xFFFFFFF0#32).getLsbD i = decide (4 ≤ i) := by
    rw [show 0xFFFFFFF0#32 = BitVec.allOnes 32 <<< 4 from rfl, BitVec.getLsbD_shiftLeft, BitVec.getLsbD_allOnes]
    by_cases h : i < 4
    · simp [h]
    · have hlt : i - 4 < 32 := by omega
      simp [hi, h, hlt, Nat.le_of_not_lt h]
  rw [streamWord, BitVec.getLsbD_and, hmask, Bool.and_comm]

theorem streamBit_of_gt (c : Cell) {k : Nat} (hk : 27 < k) : streamBit c k = false := if_neg (Nat.not_le.2 hk)

/-- Settles O11: the shift by POS moves stream bit POS + k to the k-th place from the left, and the zeros it brings in stand
where the stream is past its field. -/
theorem registerHoldsStream : Obligations.RegisterHoldsStream := by
  intro c pos k hk
  rw [streamFrom, BitVec.getLsbD_shiftLeft]
  by_cases hfield : pos + k ≤ 27
  · have hkept : ¬ 31 - k < pos := by omega
    have htag : 4 ≤ 31 - (pos + k) := by omega
    rw [streamBit, if_pos hfield, show 31 - k - pos = 31 - (pos + k) by omega, streamWord_getLsbD c (by omega)]
    simp [hkept, htag, show 31 - k < 32 by omega]
  · rw [streamBit_of_gt c (by omega)]
    by_cases hkept : 31 - k < pos
    · simp [hkept]
    · rw [streamWord_getLsbD c (by omega)]
      simp [show ¬ 4 ≤ 31 - k - pos by omega]

/-- The unconsumed stream has no 1 exactly when the register is zero. -/
theorem streamFrom_eq_zero_iff (c : Cell) (pos : Nat) :
    streamFrom c pos = 0#32 ↔ ∀ k, streamBit c (pos + k) = false := by
  refine ⟨fun hz k => ?_, fun h => BitVec.eq_of_getLsbD_eq fun i hi => ?_⟩
  · by_cases hk : k < 32
    · rw [← registerHoldsStream c pos k hk, hz, BitVec.getLsbD_zero]
    · exact streamBit_of_gt c (by omega)
  · rw [BitVec.getLsbD_zero, ← h (31 - i), ← registerHoldsStream c pos (31 - i) (by omega),
      show 31 - (31 - i) = i by omega]

theorem streamFrom_of_ge (c : Cell) {pos : Nat} (hpos : 28 ≤ pos) : streamFrom c pos = 0#32 :=
  (streamFrom_eq_zero_iff c pos).2 fun _ => streamBit_of_gt c (by omega)

theorem streamFrom_zero (c : Cell) : streamFrom c 0 = streamWord c := BitVec.shiftLeft_zero _

/-! ### The codeword at POS -/

/-- The seven bits CLASSIFY looks at are the stream's next seven. -/
theorem nextBits_getLsbD (c : Cell) (pos : Nat) {i : Nat} (hi : i < 7) :
    (nextBits (streamFrom c pos)).getLsbD i = streamBit c (pos + (6 - i)) := by
  rw [← registerHoldsStream c pos (6 - i) (by omega), nextBits, BitVec.getLsbD_extractLsb',
    show 31 - (6 - i) = 25 + i by omega]
  simp [hi]

theorem extractLsb'_eq_suffix3 {n : Nat} (w : BitVec n) (i : Nat) :
    w.extractLsb' i 3 = suffix3 (w.getLsbD (i + 2)) (w.getLsbD (i + 1)) (w.getLsbD i) := by
  refine BitVec.eq_of_getLsbD_eq fun j hj => ?_
  simp only [suffix3, BitVec.getLsbD_append, BitVec.getLsbD_extractLsb', BitVec.getLsbD_ofBool]
  interval_cases j <;> simp

theorem extractLsb'_eq_suffix5 {n : Nat} (w : BitVec n) (i : Nat) :
    w.extractLsb' i 5 = suffix5 (w.getLsbD (i + 4)) (w.getLsbD (i + 3)) (w.getLsbD (i + 2)) (w.getLsbD (i + 1))
      (w.getLsbD i) := by
  refine BitVec.eq_of_getLsbD_eq fun j hj => ?_
  simp only [suffix5, suffix3, BitVec.getLsbD_append, BitVec.getLsbD_extractLsb', BitVec.getLsbD_ofBool]
  interval_cases j <;> simp

/-- Settles O12: both classify by the first two bits, and the suffixes are the same bits. -/
theorem classifyOnStream : Obligations.ClassifyOnStream := by
  intro c pos
  rw [classify, classifyAt]
  simp (disch := decide) only [extractLsb'_eq_suffix3, extractLsb'_eq_suffix5, nextBits_getLsbD]
  rfl

/-! ### UNPACK's loop -/

theorem unpackFrom_zero (fuel : Nat) : unpackFrom fuel 0#32 = [] := by
  cases fuel with
  | zero => rfl
  | succ fuel => exact if_pos rfl

/-- A pass that finds a 1 in the stream takes the codeword at POS and goes on behind it. -/
theorem unpackFrom_succ {c : Cell} {pos : Nat} (hbits : streamFrom c pos ≠ 0#32) (fuel : Nat) :
    unpackFrom (fuel + 1) (streamFrom c pos) =
      symbolOf (classifyAt c pos) :: unpackFrom fuel (streamFrom c (pos + (classifyAt c pos).length)) := by
  rw [unpackFrom, if_neg hbits, classifyOnStream, streamFrom_add]

/-- A pass takes at least 4 bits, so passes that cover the field's 28 bits at 4 bits each are enough: any two bounds that do
give the same symbols. -/
theorem unpackFrom_fuel (c : Cell) {pos fuel fuel' : Nat} (hfuel : 28 ≤ pos + 4 * fuel) (hfuel' : 28 ≤ pos + 4 * fuel') :
    unpackFrom fuel (streamFrom c pos) = unpackFrom fuel' (streamFrom c pos) := by
  induction fuel generalizing pos fuel' with
  | zero =>
    rw [streamFrom_of_ge c (pos := pos) hfuel, unpackFrom_zero, unpackFrom_zero]
  | succ fuel ih =>
    by_cases hbits : streamFrom c pos = 0#32
    · rw [hbits, unpackFrom_zero, unpackFrom_zero]
    · have hpos := Registers.pos_lt_of_streamFrom_ne_zero hbits
      have hmin := (Registers.codeword_length_bounds (classifyAt c pos)).1
      obtain ⟨rest, rfl⟩ : ∃ rest, fuel' = rest + 1 := ⟨fuel' - 1, by omega⟩
      rw [unpackFrom_succ hbits, unpackFrom_succ hbits, ih (fuel' := rest) (by omega) (by omega)]

/-- unpack(c) is what any bound of at least seven passes gives. -/
theorem unpackFrom_eq_unpack (c : Cell) {fuel : Nat} (hfuel : 7 ≤ fuel) : unpackFrom fuel (streamFrom c 0) = unpack c := by
  rw [unpack, ← streamFrom_zero]
  exact unpackFrom_fuel c (by omega) (by decide)

/-! ### The tag -/

/-- UNPACK's register before its first pass is the cell with tag 0 (R110). -/
theorem streamWord_eq_textCell (c : Cell) : streamWord c = textCell (cellPayload c) 0#4 := by
  refine BitVec.eq_of_getLsbD_eq fun i hi => ?_
  rw [streamWord_getLsbD c hi, textCell, BitVec.getLsbD_append]
  by_cases h : i < 4
  · simp [h]
  · have hpayload : i - 4 < 28 := by omega
    rw [cellPayload, BitVec.getLsbD_extractLsb', show 4 + (i - 4) = i by omega]
    simp [h, hpayload, Nat.le_of_not_lt h]

/-- UNPACK reads the payload only (R114). -/
theorem unpack_eq_of_cellPayload_eq {c d : Cell} (h : cellPayload c = cellPayload d) : unpack c = unpack d := by
  rw [unpack, unpack, streamWord_eq_textCell, streamWord_eq_textCell, h]

theorem cellPayload_or_tag (c : Cell) (tag : BitVec 4) : cellPayload (c ||| tag.setWidth 32) = cellPayload c := by
  refine BitVec.eq_of_getLsbD_eq fun i hi => ?_
  simp [cellPayload, BitVec.getLsbD_extractLsb']

/-! ### UNPACK of the machine -/

/-- A step of an UNPACK whose stream has no 1 left ends it. -/
theorem step_of_stream_empty {s : State} (hu : s.unpacking = true) (hend : streamFrom s.unpackCell s.pos = 0#32) :
    step s = .next (endUnpack s) := by
  rw [step_of_unpacking s hu, stepUnpack, if_pos hend]

/-- A step of an UNPACK whose stream has a 1 left takes the codeword at POS. -/
theorem step_of_stream_bits {s : State} (hu : s.unpacking = true) (hbits : streamFrom s.unpackCell s.pos ≠ 0#32) :
    step s = .next (takeCodeword (classifyAt s.unpackCell s.pos) s) := by
  rw [step_of_unpacking s hu, stepUnpack, if_neg hbits, exec_decodeCodeword, classifyOnStream]

/-- The codeword steps of an UNPACK in progress append the symbols of its unconsumed stream, and one step more ends it. -/
theorem run_unpacking {fuel : Nat} {s : State} (hu : s.unpacking = true) (hfuel : 28 ≤ s.pos + 4 * fuel) :
    Sys2Proof.core.run ((unpackFrom fuel (streamFrom s.unpackCell s.pos)).length + 1) s =
      .next (endUnpack { s with unpackOut := s.unpackOut ++ unpackFrom fuel (streamFrom s.unpackCell s.pos) }) := by
  induction fuel generalizing s with
  | zero =>
    have hend : streamFrom s.unpackCell s.pos = 0#32 := streamFrom_of_ge _ hfuel
    rw [hend, unpackFrom_zero, List.append_nil]
    exact run_succ_of_step 0 s _ (step_of_stream_empty hu hend)
  | succ fuel ih =>
    by_cases hbits : streamFrom s.unpackCell s.pos = 0#32
    · rw [hbits, unpackFrom_zero, List.append_nil]
      exact run_succ_of_step 0 s _ (step_of_stream_empty hu hbits)
    · have hmin := (Registers.codeword_length_bounds (classifyAt s.unpackCell s.pos)).1
      have hrest := ih (s := takeCodeword (classifyAt s.unpackCell s.pos) s) hu (by rw [takeCodeword_pos]; omega)
      rw [takeCodeword_unpackCell, takeCodeword_pos, takeCodeword_unpackOut] at hrest
      rw [unpackFrom_succ hbits, List.length_cons, run_succ_of_step _ s _ (step_of_stream_bits hu hbits), hrest,
        List.append_assoc, List.singleton_append]
      rfl

/-! ### PACK's accumulation -/

/-- ACC and NB hold these bits: NB their number, ACC the bits with the first one most significant (R100). -/
structure Accumulated (r : PackRegs) (bits : List Bool) : Prop where
  nb_eq : r.nb = bits.length
  acc_bit : ∀ k < 28, r.acc.getLsbD k = bits.reverse.getD k false

theorem accumulated_zero : Accumulated PackRegs.zero [] := ⟨rfl, fun _ _ => BitVec.getLsbD_zero⟩

/-- Bit k of a codeword, as a number, is its k-th bit from the last one sent. -/
theorem codewordBits_reverse_getD (p : Position) (k : Nat) :
    (codewordBits p).reverse.getD k false = (codewordOf p).value.testBit k := by
  by_cases hk : k < (codewordOf p).length
  · rw [List.getD_reverse k (by simpa using hk), LetterTable.codewordBits_length, codewordBits,
      List.getD_eq_getElem _ _ (by simp; omega), List.getElem_map, List.getElem_range]
    congr 1
    omega
  · have hlt := Encodings.value_lt (codewordOf p)
    rw [List.getD_eq_default _ _ (by simpa using hk),
      Nat.testBit_lt_two_pow (hlt.trans_le (Nat.pow_le_pow_right (by decide) (Nat.le_of_not_lt hk)))]

/-- Appending a codeword puts its bits behind those that ACC holds (R100). -/
theorem Accumulated.append {r : PackRegs} {bits : List Bool} (h : Accumulated r bits) (p : Position) :
    Accumulated (r.append (codewordOf p)) (bits ++ codewordBits p) := by
  refine ⟨?_, fun k hk => ?_⟩
  · rw [PackRegs.append, h.nb_eq, List.length_append, LetterTable.codewordBits_length]
  · rw [PackRegs.append, BitVec.getLsbD_or, BitVec.getLsbD_shiftLeft, BitVec.getLsbD_ofNat, List.reverse_append,
      ← codewordBits_reverse_getD]
    by_cases hnew : k < (codewordOf p).length
    · rw [List.getD_append _ _ _ _ (by simpa using hnew)]
      simp [hk, hnew]
    · rw [List.getD_append_right _ _ _ _ (by simpa using hnew),
        List.getD_eq_default (codewordBits p).reverse _ (by simpa using hnew), h.acc_bit _ (by omega)]
      simp [hk, hnew]

@[simp] theorem wordBits_nil : wordBits [] = [] := rfl

@[simp] theorem wordBits_cons (p : Position) (ps : List Position) : wordBits (p :: ps) = codewordBits p ++ wordBits ps := rfl

@[simp] theorem lookup_symbolAt (p : Position) : lookup (symbolAt p) = some p := Scope.lookup_glyphAt p

/-- PACK's loop gets through symbols whose codewords fit, with any characters behind them, and leaves their bits in ACC and
NB. -/
theorem packLoop_accumulates (ps : List Position) {r : PackRegs} {bits : List Bool} (hr : Accumulated r bits)
    (hfit : (bits ++ wordBits ps).length ≤ 28) :
    ∃ r', Accumulated r' (bits ++ wordBits ps) ∧ ∀ (rest : List CHAR) (j : Nat),
      packLoop lookup (ps.map symbolAt ++ rest) j r = packLoop lookup rest (j + ps.length) r' := by
  induction ps generalizing r bits with
  | nil => exact ⟨r, by simpa using hr, fun rest j => rfl⟩
  | cons p ps ih =>
    rw [wordBits_cons, ← List.append_assoc] at hfit ⊢
    obtain ⟨r', hr', hloop⟩ := ih (hr.append p) hfit
    have hroom : ¬ r.nb + (codewordOf p).length > Config.fieldBits := by
      simp only [List.length_append, LetterTable.codewordBits_length] at hfit
      rw [hr.nb_eq, Config.fieldBits]
      omega
    refine ⟨r', hr', fun rest j => ?_⟩
    rw [List.map_cons, List.cons_append, packLoop, lookup_symbolAt]
    simp only [if_neg hroom, hloop]
    rw [List.length_cons, Nat.add_assoc, Nat.add_comm 1]

/-- A word whose codewords fit is accepted, with its bits in ACC and NB. -/
theorem packLoop_of_fits {ps : List Position} (hfit : (wordBits ps).length ≤ 28) :
    ∃ r, packLoop lookup (ps.map symbolAt) 0 PackRegs.zero = .ok r ∧ Accumulated r (wordBits ps) := by
  obtain ⟨r, hr, hloop⟩ := packLoop_accumulates ps accumulated_zero hfit
  refine ⟨r, ?_, hr⟩
  have h := hloop [] 0
  rwa [List.append_nil] at h

/-- The bound is tested before every append, so NB stays within it. -/
theorem packLoop_nb_le {α : Type} {look : α → Option Position} {w : List α} {j : Nat} {r r' : PackRegs} (hr : r.nb ≤ 28)
    (h : packLoop look w j r = .ok r') : r'.nb ≤ 28 := by
  induction w generalizing j r with
  | nil =>
    cases h
    exact hr
  | cons ch rest ih =>
    rw [packLoop] at h
    split at h
    · cases h
    · split at h
      · cases h
      · next hroom => exact ih (r := r.append _) (Nat.le_of_not_lt hroom) h

/-! ### PACK's cell -/

/-- Only the space's codeword is all zeros: a check of 48 rows. -/
theorem true_mem_codewordBits_iff (p : Position) : true ∈ codewordBits p ↔ p ≠ 0 := by
  revert p
  decide

theorem true_mem_wordBits_iff (ps : List Position) : true ∈ wordBits ps ↔ ∃ p ∈ ps, p ≠ 0 := by
  simp only [wordBits, List.mem_flatMap, true_mem_codewordBits_iff]

theorem getD_eq_true_of_mem {bits : List Bool} (h : true ∈ bits) : ∃ k < bits.length, bits.getD k false = true := by
  obtain ⟨k, hk, hget⟩ := List.getElem_of_mem h
  exact ⟨k, hk, by rw [List.getD_eq_getElem _ _ hk, hget]⟩

/-- ACC is zero only if all the bits are (R103). -/
theorem Accumulated.acc_ne_zero {r : PackRegs} {bits : List Bool} (h : Accumulated r bits) (hfit : bits.length ≤ 28)
    (hbit : true ∈ bits) : r.acc ≠ 0#28 := by
  obtain ⟨k, hk, hget⟩ := getD_eq_true_of_mem (List.mem_reverse.2 hbit)
  rw [List.length_reverse] at hk
  intro hz
  rw [← h.acc_bit k (by omega), hz, BitVec.getLsbD_zero] at hget
  cases hget

theorem cellTag_packedCell (acc : BitVec 28) (nb : Nat) : cellTag (packedCell acc nb) = 0#4 := by
  refine BitVec.eq_of_getLsbD_eq fun i hi => ?_
  simp [cellTag, packedCell, hi]

/-- The cell's stream starts with the accumulated bits, and zeros follow them (R102). -/
theorem streamBit_packedCell {r : PackRegs} {bits : List Bool} (h : Accumulated r bits) (hfit : bits.length ≤ 28) {k : Nat}
    (hk : k ≤ 27) : streamBit (packedCell r.acc r.nb) k = bits.getD k false := by
  have hnb := h.nb_eq
  have hhigh : ¬ 31 - k < 4 := by omega
  rw [streamBit, if_pos hk, packedCell, BitVec.getLsbD_shiftLeft, BitVec.getLsbD_shiftLeft, BitVec.getLsbD_setWidth]
  by_cases hin : k < bits.length
  · have hacc := h.acc_bit (31 - k - 4 - (28 - r.nb)) (by omega)
    rw [List.getD_reverse _ (by omega), show bits.length - 1 - (31 - k - 4 - (28 - r.nb)) = k by omega] at hacc
    rw [hacc]
    simp [hhigh, show ¬ 31 - k - 4 < 28 - r.nb by omega, show 31 - k < 32 by omega, show 31 - k - 4 < 32 by omega,
      show 31 - k - 4 - (28 - r.nb) < 32 by omega]
  · rw [List.getD_eq_default _ _ (Nat.le_of_not_lt hin)]
    simp [show 31 - k - 4 < 28 - r.nb by omega]

/-! ### Words in a stream -/

/-- The stream from POS on is these bits, and zeros behind them. -/
def StreamHolds (c : Cell) (pos : Nat) (bits : List Bool) : Prop := ∀ k, streamBit c (pos + k) = bits.getD k false

theorem streamHolds_of_field {c : Cell} {bits : List Bool} (hfit : bits.length ≤ 28)
    (h : ∀ k, k ≤ 27 → streamBit c k = bits.getD k false) : StreamHolds c 0 bits := by
  intro k
  rw [Nat.zero_add]
  by_cases hk : k ≤ 27
  · exact h k hk
  · rw [streamBit_of_gt c (by omega), List.getD_eq_default _ _ (by omega)]

theorem StreamHolds.drop {c : Cell} {pos : Nat} {front rest : List Bool} (h : StreamHolds c pos (front ++ rest)) :
    StreamHolds c (pos + front.length) rest := by
  intro k
  rw [Nat.add_assoc, h, List.getD_append_right _ _ _ _ (Nat.le_add_right _ _), Nat.add_sub_cancel_left]

/-- A codeword whose bits stand at POS is the one CLASSIFY finds there (30_encoding.md R57; R111). -/
theorem StreamHolds.classifyAt_eq {c : Cell} {pos : Nat} {p : Position} {rest : List Bool}
    (h : StreamHolds c pos (codewordBits p ++ rest)) : classifyAt c pos = codewordOf p := by
  have hlen := (Registers.codeword_length_bounds (codewordOf p)).2
  rw [← classifyOnStream, ← Encodings.startsWith_iff]
  intro j hj
  have hin : 6 - (7 - (codewordOf p).length + j) < (codewordBits p).length := by
    rw [LetterTable.codewordBits_length]
    omega
  rw [nextBits_getLsbD c pos (by omega), h, List.getD_append _ _ _ _ hin, ← codewordBits_reverse_getD,
    List.getD_reverse j (by simpa using hj)]
  congr 1
  rw [LetterTable.codewordBits_length]
  omega

/-- UNPACK's loop ends where only spaces are left (R112). -/
theorem StreamHolds.streamFrom_zero_iff_spaces {c : Cell} {pos : Nat} {ps : List Position}
    (h : StreamHolds c pos (wordBits ps)) : streamFrom c pos = 0#32 ↔ ∀ p ∈ ps, p = 0 := by
  have hspaces : true ∉ wordBits ps ↔ ∀ p ∈ ps, p = 0 := by
    rw [true_mem_wordBits_iff]
    push Not
    rfl
  rw [streamFrom_eq_zero_iff, ← hspaces]
  refine ⟨fun hz hmem => ?_, fun hmem k => ?_⟩
  · obtain ⟨k, -, hk⟩ := getD_eq_true_of_mem hmem
    rw [← h k, hz k] at hk
    cases hk
  · rw [h k]
    by_contra hk
    rw [Bool.not_eq_false] at hk
    by_cases hlt : k < (wordBits ps).length
    · rw [List.getD_eq_getElem _ _ hlt] at hk
      exact hmem (hk ▸ List.getElem_mem hlt)
    · rw [List.getD_eq_default _ _ (Nat.le_of_not_lt hlt)] at hk
      cases hk

/-! ### Trailing spaces -/

theorem dropTrailingSpaces_eq_rdropWhile (ps : List Position) : dropTrailingSpaces ps = ps.rdropWhile (· == 0) := rfl

theorem dropTrailingSpaces_eq_nil {ps : List Position} (h : ∀ p ∈ ps, p = 0) : dropTrailingSpaces ps = [] := by
  rw [dropTrailingSpaces_eq_rdropWhile, List.rdropWhile_eq_nil_iff]
  simpa using h

/-- A symbol stays if it or one behind it is not the space. -/
theorem dropTrailingSpaces_cons {p : Position} {ps : List Position} (h : ¬ ∀ q ∈ p :: ps, q = 0) :
    dropTrailingSpaces (p :: ps) = p :: dropTrailingSpaces ps := by
  rw [dropTrailingSpaces, dropTrailingSpaces, List.reverse_cons, List.dropWhile_append]
  by_cases hps : ∀ q ∈ ps, q = 0
  · have hp : p ≠ 0 := fun hp => h (by simpa [hp] using hps)
    have hdrop : ps.reverse.dropWhile (· == 0) = [] := List.dropWhile_eq_nil_iff.2 (by simpa using hps)
    simp [hdrop, hp]
  · have hdrop : ps.reverse.dropWhile (· == 0) ≠ [] := fun hz => hps (by simpa using List.dropWhile_eq_nil_iff.1 hz)
    simp [hdrop]

theorem dropTrailingSpaces_eq_self {ps : List Position} (h : ps.getLast? ≠ some 0) : dropTrailingSpaces ps = ps := by
  rw [dropTrailingSpaces_eq_rdropWhile, List.rdropWhile_eq_self_iff]
  intro hne hlast
  exact h (by rw [List.getLast?_eq_some_getLast hne, beq_iff_eq.1 hlast])

/-- UNPACK's loop on a word's codewords gives back the word up to its last symbol that is not the space (R112, R115). -/
theorem unpackFrom_of_streamHolds {c : Cell} {pos fuel : Nat} {ps : List Position} (h : StreamHolds c pos (wordBits ps))
    (hfuel : 28 ≤ pos + 4 * fuel) : unpackFrom fuel (streamFrom c pos) = dropTrailingSpaces ps := by
  induction ps generalizing pos fuel with
  | nil => rw [h.streamFrom_zero_iff_spaces.2 (by simp), unpackFrom_zero, dropTrailingSpaces_eq_nil (by simp)]
  | cons p ps ih =>
    by_cases hspaces : ∀ q ∈ p :: ps, q = 0
    · rw [h.streamFrom_zero_iff_spaces.2 hspaces, unpackFrom_zero, dropTrailingSpaces_eq_nil hspaces]
    · have hbits : streamFrom c pos ≠ 0#32 := fun hz => hspaces (h.streamFrom_zero_iff_spaces.1 hz)
      have hpos := Registers.pos_lt_of_streamFrom_ne_zero hbits
      have hmin := (Registers.codeword_length_bounds (codewordOf p)).1
      obtain ⟨fuel, rfl⟩ : ∃ rest, fuel = rest + 1 := ⟨fuel - 1, by omega⟩
      rw [wordBits_cons] at h
      have hrest := h.drop
      rw [LetterTable.codewordBits_length] at hrest
      rw [unpackFrom_succ hbits, h.classifyAt_eq, Encodings.symbolOf_codewordOf, ih hrest (by omega),
        dropTrailingSpaces_cons hspaces]

/-! ### The obligations -/

/-- Settles O21: seven passes of at least 4 bits cover the field. -/
theorem unpackSevenPasses : Obligations.UnpackSevenPasses := by
  intro c fuel hfuel
  rw [← streamFrom_zero, unpackFrom_eq_unpack c hfuel]

/-- Settles O22: the mask keeps the payload, and so does a change of the tag. -/
theorem unpackIgnoresTag : Obligations.UnpackIgnoresTag := by
  refine ⟨fun c => ?_, fun payload tag tag' => ?_⟩
  · refine unpack_eq_of_cellPayload_eq ?_
    rw [show c &&& 0xFFFFFFF0#32 = streamWord c from rfl, streamWord_eq_textCell, cellPayload_textCell]
  · refine unpack_eq_of_cellPayload_eq ?_
    rw [cellPayload_textCell, cellPayload_textCell]

/-- Settles O20: the loop of the one-step command and the codeword steps both give the symbols of the whole stream. -/
theorem unpackCompletes : Obligations.UnpackCompletes := by
  intro c s
  refine ⟨?_, ?_, Registers.unpack_length_le c⟩
  · obtain ⟨pos, hexec⟩ := Scope.exec_unpack c s
    rw [hexec]
    rfl
  · have hrun := run_unpacking (fuel := 7) (s := beginUnpack c s) rfl (by simp)
    rw [beginUnpack_unpackCell, beginUnpack_pos, beginUnpack_unpackOut, unpackFrom_eq_unpack c (Nat.le_refl 7),
      List.nil_append] at hrun
    exact hrun

/-- Settles O14: a word that fits leaves its bits in ACC and NB, and no append passes the bound. -/
theorem packAccumulates : Obligations.PackAccumulates := by
  refine ⟨fun ps hfit => ?_, fun w r hok => packLoop_nb_le (by decide) hok⟩
  obtain ⟨r, hok, hr⟩ := packLoop_of_fits hfit
  refine ⟨r, hok, hr.nb_eq, fun k hk => ?_⟩
  rw [hr.acc_bit k hk, hr.nb_eq]
  by_cases hin : k < (wordBits ps).length
  · rw [List.getD_reverse k hin]
    simp [hin]
  · rw [List.getD_eq_default _ _ (by simpa using hin)]
    simp [hin]

/-- Settles O13: the loop leaves the word's bits in ACC, which is not zero, and the cell takes them left-aligned. -/
theorem packWritesCell : Obligations.PackWritesCell := by
  intro ps s hfit hsymbol
  obtain ⟨r, hok, hr⟩ := packLoop_of_fits hfit
  have hacc : r.acc ≠ 0#28 := hr.acc_ne_zero hfit ((true_mem_wordBits_iff ps).2 hsymbol)
  refine ⟨packedCell r.acc r.nb, ?_, cellTag_packedCell _ _, fun k hk => streamBit_packedCell hr hfit hk⟩
  rw [Scope.exec_pack, hok, packResult, finishPack, if_neg hacc]
  rfl

/-- Settles O19, by induction on the word over the stream of PACK's cell. -/
theorem packUnpackRoundTrip : Obligations.PackUnpackRoundTrip := by
  intro ps s tag hfit hsymbol
  obtain ⟨cell, hexec, -, hstream⟩ := packWritesCell ps s hfit hsymbol
  have hunpack : unpack (cell ||| tag.setWidth 32) = dropTrailingSpaces ps := by
    rw [unpack_eq_of_cellPayload_eq (cellPayload_or_tag cell tag), ← unpackFrom_eq_unpack cell (Nat.le_refl 7)]
    exact unpackFrom_of_streamHolds (streamHolds_of_field hfit hstream) (by decide)
  exact ⟨_, hexec, rfl, hunpack, fun hlast => hunpack.trans (dropTrailingSpaces_eq_self hlast)⟩

end Sys2Proof.WordCodec
end

-- ==== Proofs of 42_block_interpreter.md ====
section
/-! PROOFS. The statements of 42_block_interpreter.md: entering and ending a run (R131 to R134), the arms of DISPATCH (R135 to
R155), the rendering of a whole block, and the invariant of OUT (R138, R143). -/

open Sys2Proof Sys2Proof.Machine

namespace Sys2Proof.BlockInterpreter

/-! ### Entering and ending a run -/

theorem exec_runBlock_accepted {view : View} {n : Nat} (h : 256 * n + 256 ≤ view.len) (s : State) :
    exec (.runBlock view n) s = .next (enter view n s) := by
  have hinside : ¬ windowOutside view n = true := fun hout => Nat.not_lt.2 h ((windowOutside_iff view n).1 hout)
  rw [Scope.exec_runBlock, if_neg hinside]

theorem runStatus_sentinel : runStatus .sentinel = 0x08#8 := by decide

theorem runStatus_windowEnd : runStatus .windowEnd = 0x10#8 := by decide

/-- At the window boundary the run ends before any read (R133). -/
theorem step_of_window_end {s : State} (hu : s.unpacking = false) (hp : s.phase = .running) (hidx : s.idx = 256#9) :
    step s = .next (endRun .windowEnd s) := by
  rw [step_of_running s hu hp, stepBlock, if_pos hidx]

/-- Inside the window the cell that is read runs (R132, R133). -/
theorem step_of_cell {s : State} (hu : s.unpacking = false) (hp : s.phase = .running) (hidx : s.idx ≠ 256#9) {c : Cell}
    (hread : memRead s (nextCellIndex s) = .ok c) : step s = exec (decodeCell c) s := by
  rw [step_of_running s hu hp, stepBlock, if_neg hidx, hread]

/-! ### The arms -/

/-- A text does not depend on its cell's tag (R136; 41_word_codec.md R114). -/
theorem unpack_textCell (payload : BitVec 28) (tag : BitVec 4) :
    unpack (textCell payload tag) = unpack (textCell payload 0#4) :=
  WordCodec.unpack_eq_of_cellPayload_eq (by rw [cellPayload_textCell, cellPayload_textCell])

theorem textArm_textCell (k : Option ColourClass) (payload : BitVec 28) (tag : BitVec 4) (s : State) :
    textArm k (textCell payload tag) s = emit (colourEvents k ++ [.text (unpack (textCell payload 0#4)), .sep]) s := by
  rw [textArm, unpack_textCell]

theorem numArm_numCell (k : ColourClass) (value : BitVec 27) (bit4 : BitVec 1) (tag : BitVec 4) (s : State) :
    numArm k (numCell value bit4 tag) s = emit [.color k, .num value, .sep] s := by
  rw [numArm, cellValue_numCell]

theorem breakEvents_of_first {s : State} (h : s.defcnt = 0#9) : breakEvents s = [] := by
  simp [breakEvents, State.hasDefinition, h]

theorem breakEvents_of_later {s : State} (h : s.defcnt ≠ 0#9) : breakEvents s = [.lineBreak] := by
  simp [breakEvents, State.hasDefinition, h]

theorem definitionArm_textCell (payload : BitVec 28) (tag : BitVec 4) (s : State) :
    definitionArm (textCell payload tag) s =
      { emit ([.color .b] ++ breakEvents s ++ [.text (unpack (textCell payload 0#4)), .sep]) s with
        defcnt := s.defcnt + 1#9 } := by
  rw [definitionArm, unpack_textCell]

/-! ### DISPATCH as the tag table says -/

section Dispatch

variable {c : Cell} {tag : BitVec 4} (s : State)

/-- The state after DISPATCH(c) of the tag table and R133's IDX + 1. -/
def dispatched (c : Cell) (s : State) : State :=
  { s with
    out := s.out ++ dispatchEvents c s.defcnt.toNat
    defcnt := s.defcnt + BitVec.ofNat 9 (definitionsIn c)
    idx := s.idx + 1#9 }

theorem definitionsIn_of_ne (h : cellTag c ≠ 3#4) : definitionsIn c = 0 := if_neg h

theorem definitionsIn_of_tag_3 (h : cellTag c = 3#4) : definitionsIn c = 1 := if_pos h

theorem definitionsIn_le_one (c : Cell) : definitionsIn c ≤ 1 := by
  rw [definitionsIn]
  split <;> omega

/-- The tag table names definitions by tag 3 only: every other cell keeps DEFCNT. -/
theorem dispatched_of_ne (h : cellTag c ≠ 3#4) : dispatched c s = advanceIdx (emit (dispatchEvents c s.defcnt.toNat) s) := by
  rw [dispatched, definitionsIn_of_ne h]
  simp [advanceIdx, emit]

theorem skip_dispatches (htag : (cellTag c).toNat = (0#4).toNat) : advanceIdx s = dispatched c s := by
  have heq := BitVec.eq_of_toNat_eq htag
  rw [dispatched_of_ne s (by rw [heq]; decide), dispatchEvents, heq]
  simp [tagMap, emit]

theorem textArm_dispatches {k : Option ColourClass} (htag : (cellTag c).toNat = tag.toNat) (hmap : tagMap tag = (k, .text))
    (hne : tag ≠ 3#4) : advanceIdx (textArm k (textCell (cellPayload c) tag) s) = dispatched c s := by
  have hcell := Encodings.textCell_of_tag htag
  have heq := BitVec.eq_of_toNat_eq htag
  rw [hcell, dispatched_of_ne s (heq ▸ hne), dispatchEvents, heq, hmap]
  simp [textArm, hne]

theorem numArm_dispatches {k : ColourClass} (htag : (cellTag c).toNat = tag.toNat) (hmap : tagMap tag = (some k, .num))
    (hne : tag ≠ 3#4) : advanceIdx (numArm k (numCell (cellValue c) (cellBit4 c) tag) s) = dispatched c s := by
  have hcell := Encodings.numCell_of_tag htag
  have heq := BitVec.eq_of_toNat_eq htag
  rw [hcell, dispatched_of_ne s (heq ▸ hne), dispatchEvents, heq, hmap]
  rfl

theorem definitionArm_dispatches (htag : (cellTag c).toNat = (3#4).toNat) :
    advanceIdx (definitionArm (textCell (cellPayload c) 3#4) s) = dispatched c s := by
  have hcell := Encodings.textCell_of_tag htag
  have heq := BitVec.eq_of_toNat_eq htag
  have hbreak : breakEvents s = if s.defcnt.toNat ≠ 0 then [.lineBreak] else [] := by
    simp [breakEvents, State.hasDefinition, BitVec.toNat_eq]
  rw [hcell, dispatched, dispatchEvents, definitionsIn_of_tag_3 heq, heq, definitionArm, hbreak]
  simp [tagMap, advanceIdx, emit, colourEvents]

/-- Each of the 16 arms does what its row of the tag table says (30_encoding.md R52; R135). -/
theorem exec_decodeTagged (c : Cell) (s : State) : exec (decodeTagged c) s = .next (dispatched c s) := by
  have hlt := (cellTag c).isLt
  unfold decodeTagged
  split
  · next h => exact congrArg Host.Outcome.next (skip_dispatches s h)
  · next h => exact congrArg Host.Outcome.next (textArm_dispatches s h rfl (by decide))
  · next h => exact congrArg Host.Outcome.next (numArm_dispatches s h rfl (by decide))
  · next h => exact congrArg Host.Outcome.next (definitionArm_dispatches s h)
  · next h => exact congrArg Host.Outcome.next (textArm_dispatches s h rfl (by decide))
  · next h => exact congrArg Host.Outcome.next (numArm_dispatches s h rfl (by decide))
  · next h => exact congrArg Host.Outcome.next (numArm_dispatches s h rfl (by decide))
  · next h => exact congrArg Host.Outcome.next (textArm_dispatches s h rfl (by decide))
  · next h => exact congrArg Host.Outcome.next (numArm_dispatches s h rfl (by decide))
  · next h => exact congrArg Host.Outcome.next (textArm_dispatches s h rfl (by decide))
  · next h => exact congrArg Host.Outcome.next (textArm_dispatches s h rfl (by decide))
  · next h => exact congrArg Host.Outcome.next (textArm_dispatches s h rfl (by decide))
  · next h => exact congrArg Host.Outcome.next (textArm_dispatches s h rfl (by decide))
  · next h => exact congrArg Host.Outcome.next (textArm_dispatches s h rfl (by decide))
  · next h => exact congrArg Host.Outcome.next (textArm_dispatches s h rfl (by decide))
  · have h : (cellTag c).toNat = 15 := by simp only [imp_false] at *; omega
    exact congrArg Host.Outcome.next (numArm_dispatches s h rfl (by decide))

end Dispatch

/-- A nonzero cell is dispatched. -/
theorem exec_decodeCell_dispatches {c : Cell} (hc : c ≠ 0#32) (s : State) :
    exec (decodeCell c) s = .next (dispatched c s) := by
  rw [Encodings.decodeCell_of_ne_zero hc, exec_decodeTagged]

/-! ### A whole run -/

/-- A run in progress whose cells from the next one on, as far as the first zero cell or the window's end, are `cells`. DEFCNT
has not passed the cells read, so it does not wrap. -/
structure RunAhead (cells : List Cell) (s : State) : Prop where
  notUnpacking : s.unpacking = false
  running : s.phase = .running
  defcntCounted : s.defcnt.toNat ≤ s.idx.toNat
  windowInView : 256 * s.blk + 256 ≤ s.view.len
  holds : ∀ k < cells.length, s.store.read (s.view.base + (256 * s.blk + s.idx.toNat + k)) = cells[k]?
  ends : s.idx.toNat + cells.length = 256 ∨ (s.idx.toNat + cells.length ≤ 256 ∧ 0#32 ∈ cells)

/-- The state at the end of the run: the rendering of the cells ahead is appended to what the run has left so far. -/
def rendered (cells : List Cell) (s : State) : State :=
  { s with
    defcnt := BitVec.ofNat 9 (renderCells cells s.defcnt.toNat).defs
    idx := s.idx + BitVec.ofNat 9 (renderCells cells s.defcnt.toNat).visited
    out := s.out ++ (renderCells cells s.defcnt.toNat).events
    phase := .idle
    status := runStatus (renderCells cells s.defcnt.toNat).ended }

theorem rendered_nil (s : State) : rendered [] s = endRun .windowEnd s := by
  simp [rendered, renderCells, endRun]

theorem rendered_zero (rest : List Cell) (s : State) : rendered (0#32 :: rest) s = endRun .sentinel s := by
  simp [rendered, renderCells, endRun]

section Run

variable {c : Cell} {rest cells : List Cell} {s : State}

theorem RunAhead.step_nil (h : RunAhead [] s) : step s = .next (endRun .windowEnd s) := by
  have hidx : s.idx.toNat = 256 := by simpa using h.ends
  exact step_of_window_end h.notUnpacking h.running (BitVec.eq_of_toNat_eq hidx)

theorem RunAhead.idx_lt (h : RunAhead (c :: rest) s) : s.idx.toNat < 256 := by
  have hends := h.ends
  simp only [List.length_cons] at hends
  omega

/-- The next cell of a run is read and run. -/
theorem RunAhead.step_cons (h : RunAhead (c :: rest) s) : step s = exec (decodeCell c) s := by
  have hlt := h.idx_lt
  have hview := h.windowInView
  refine step_of_cell h.notUnpacking h.running (fun hidx => ?_) ((memRead_ok s _ c).2 ⟨?_, h.holds 0 (by simp)⟩)
  · simp [hidx] at hlt
  · show 256 * s.blk + s.idx.toNat < s.view.len
    omega

theorem dispatched_idx_toNat (h : s.idx.toNat < 256) : (dispatched c s).idx.toNat = s.idx.toNat + 1 :=
  Registers.toNat_add_one h

theorem dispatched_defcnt_toNat (h : s.defcnt.toNat < 256) :
    (dispatched c s).defcnt.toNat = s.defcnt.toNat + definitionsIn c := by
  have hdefs := definitionsIn_le_one c
  simp only [dispatched, BitVec.toNat_add, BitVec.toNat_ofNat]
  omega

/-- Behind a nonzero cell the run goes on with the cells after it. -/
theorem RunAhead.tail (h : RunAhead (c :: rest) s) (hc : c ≠ 0#32) : RunAhead rest (dispatched c s) := by
  have hlt := h.idx_lt
  have hcount := h.defcntCounted
  have hdefs := definitionsIn_le_one c
  have hidx : (dispatched c s).idx.toNat = s.idx.toNat + 1 := dispatched_idx_toNat hlt
  refine
    { notUnpacking := h.notUnpacking
      running := h.running
      defcntCounted := ?_
      windowInView := h.windowInView
      holds := fun k hk => ?_
      ends := ?_ }
  · rw [hidx, dispatched_defcnt_toNat (by omega)]
    omega
  · have hcell := h.holds (k + 1) (Nat.succ_lt_succ hk)
    rw [hidx, show ∀ b, b + (s.idx.toNat + 1) + k = b + s.idx.toNat + (k + 1) by omega]
    exact hcell
  · rw [hidx]
    obtain hfull | ⟨hshort, hzero⟩ := h.ends
    · exact .inl (by simp only [List.length_cons] at hfull; omega)
    · refine .inr ⟨by simp only [List.length_cons] at hshort; omega, ?_⟩
      exact (List.mem_cons.1 hzero).resolve_left (Ne.symm hc)

/-- The rendering of a nonzero cell and of the cells after it is the whole rendering. -/
theorem rendered_dispatched (h : RunAhead (c :: rest) s) (hc : c ≠ 0#32) :
    rendered rest (dispatched c s) = rendered (c :: rest) s := by
  have hlt := h.idx_lt
  have hcount := h.defcntCounted
  have hdefs : (dispatched c s).defcnt.toNat = s.defcnt.toNat + definitionsIn c := dispatched_defcnt_toNat (by omega)
  simp only [rendered, hdefs, renderCells, if_neg hc]
  simp [dispatched, BitVec.ofNat_add, BitVec.add_assoc, BitVec.add_comm]

/-- A run ends with the rendering of its cells, in one step for each cell and at most one for its end. -/
theorem run_renders (h : RunAhead cells s) :
    ∃ k, k ≤ cells.length + 1 ∧ Sys2Proof.core.run k s = .next (rendered cells s) := by
  induction cells generalizing s with
  | nil => exact ⟨1, Nat.le_refl 1, by rw [run_succ_of_step 0 s _ h.step_nil, run_zero, rendered_nil]⟩
  | cons c rest ih =>
    by_cases hc : c = 0#32
    · subst hc
      have hstep : step s = .next (endRun .sentinel s) := h.step_cons
      exact ⟨1, by simp, by rw [run_succ_of_step 0 s _ hstep, run_zero, rendered_zero]⟩
    · obtain ⟨k, hk, hrun⟩ := ih (h.tail hc)
      have hstep : step s = .next (dispatched c s) := h.step_cons.trans (exec_decodeCell_dispatches hc s)
      exact ⟨k + 1, Nat.succ_le_succ hk, by rw [run_succ_of_step k s _ hstep, hrun, rendered_dispatched h hc]⟩

/-- ENTER(n) on a block that stands in the store has the block's cells ahead. -/
theorem runAhead_enter {view : View} {n : Nat} (hu : s.unpacking = false) (hview : 256 * n + 256 ≤ view.len)
    (hholds : blockHolds s.store view n cells) (hends : cells.length = 256 ∨ (cells.length ≤ 256 ∧ 0#32 ∈ cells)) :
    RunAhead cells (enter view n s) where
  notUnpacking := hu
  running := rfl
  defcntCounted := Nat.le_refl 0
  windowInView := hview
  holds := hholds
  ends := by simpa using hends

end Run

/-! ### What keeps the invariant of OUT -/

section Output

variable {s t : State}

/-- A separated stream leaves no token open at its end, so what follows is read on its own; by the recursion of the check. -/
theorem tokensSeparated_append {xs ys : List Event} (hx : tokensSeparated xs = true) (hy : tokensSeparated ys = true) :
    tokensSeparated (xs ++ ys) = true := by
  induction xs using tokensSeparated.induct <;> simp_all [tokensSeparated]

/-- The invariant is about OUT and DEFCNT only. -/
theorem outputInv_of_same (h : s.OutputInv) (hout : t.out = s.out) (hdefcnt : t.defcnt = s.defcnt) : t.OutputInv where
  separated := by rw [hout, h.separated]
  breaksCounted := by rw [hout, hdefcnt, h.breaksCounted]
  textsShort := by rw [hout, h.textsShort]

theorem outputInv_of_cleared (hout : s.out = []) (hdefcnt : s.defcnt = 0#9) : s.OutputInv where
  separated := by rw [hout]; rfl
  breaksCounted := by rw [hout, hdefcnt]; rfl
  textsShort := by rw [hout]; rfl

/-- An arm may append events that keep the separators and the tokens' bound and bring the BREAKs that DEFCNT asks for. -/
theorem outputInv_of_append (h : s.OutputInv) {evs : List Event} (hout : t.out = s.out ++ evs)
    (hsep : tokensSeparated evs = true) (hbreaks : s.defcnt.toNat - 1 + evs.count .lineBreak = t.defcnt.toNat - 1)
    (hshort : evs.all textShort = true) : t.OutputInv where
  separated := by rw [hout, tokensSeparated_append h.separated hsep]
  breaksCounted := by rw [hout, List.count_append, h.breaksCounted, hbreaks]
  textsShort := by rw [hout, List.all_append, h.textsShort, hshort]; rfl

theorem textArm_outputInv (h : s.OutputInv) (k : Option ColourClass) (c : Cell) : (textArm k c s).OutputInv := by
  have hshort : (colourEvents k ++ [Event.text (unpack c), .sep]).all textShort = true := by
    cases k <;> simp [colourEvents, textShort, Registers.unpack_length_le]
  cases k with
  | none => exact outputInv_of_append h (textArm_out _ c s) rfl rfl hshort
  | some k => exact outputInv_of_append h (textArm_out _ c s) rfl rfl hshort

theorem numArm_outputInv (h : s.OutputInv) (k : ColourClass) (c : Cell) : (numArm k c s).OutputInv :=
  outputInv_of_append h (numArm_out k c s) rfl rfl rfl

/-- The first definition of a run brings no BREAK, every later one brings one, and DEFCNT does not wrap below 256 (R143). -/
theorem definitionArm_outputInv (h : s.OutputInv) (hlt : s.defcnt.toNat < 256) (c : Cell) :
    (definitionArm c s).OutputInv := by
  have hcount : (definitionArm c s).defcnt.toNat = s.defcnt.toNat + 1 := Registers.toNat_add_one hlt
  have hout := definitionArm_out c s
  by_cases hfirst : s.defcnt = 0#9
  · rw [breakEvents_of_first hfirst] at hout
    refine outputInv_of_append h hout rfl ?_ (by simp [textShort, Registers.unpack_length_le])
    simp [hfirst]
  · rw [breakEvents_of_later hfirst] at hout
    refine outputInv_of_append h hout rfl ?_ (by simp [textShort, Registers.unpack_length_le])
    have hpos : s.defcnt.toNat ≠ 0 := fun hz => hfirst (BitVec.eq_of_toNat_eq hz)
    rw [hcount]
    simp
    omega

theorem armEffect_outputInv (h : s.OutputInv) (hlt : s.defcnt.toNat < 256) {c : Cell} (harm : ArmEffect c s t) :
    t.OutputInv := by
  obtain ⟨-, rfl⟩ | ⟨-, rfl⟩ | ⟨-, -, k, rfl⟩ | ⟨-, -, k, rfl⟩ := harm
  · exact outputInv_of_same h rfl rfl
  · exact outputInv_of_same (definitionArm_outputInv h hlt c) rfl rfl
  · exact outputInv_of_same (textArm_outputInv h k c) rfl rfl
  · exact outputInv_of_same (numArm_outputInv h k c) rfl rfl

/-- Of the commands only an accepted RUN_BLOCK touches OUT and DEFCNT, and it clears both (R131). -/
theorem exec_decodeCommand_outputInv (h : s.OutputInv) (r : Request) (hexec : exec (decodeCommand r) s = .next t) :
    t.OutputInv := by
  obtain hr | hr | hr | hr := Scope.decodeCommand_cases r <;> rw [hr] at hexec
  · rw [Scope.exec_pack] at hexec
    cases hexec
    obtain ⟨e, j, -, heq⟩ | ⟨regs, -, -, heq⟩ | ⟨regs, -, -, heq⟩ :=
      packResult_cases (packLoop lookup r.word 0 PackRegs.zero) s <;>
      exact outputInv_of_same h (by rw [heq]; rfl) (by rw [heq]; rfl)
  · obtain ⟨pos, hunpack⟩ := Scope.exec_unpack r.cell s
    rw [hunpack] at hexec
    cases hexec
    exact outputInv_of_same h rfl rfl
  · rw [Scope.exec_runBlock] at hexec
    cases hexec
    split
    · exact outputInv_of_same h rfl rfl
    · exact outputInv_of_cleared rfl rfl
  · rw [Scope.exec_reservedCmd] at hexec
    cases hexec
    exact outputInv_of_same h rfl rfl

end Output

/-! ### The obligations -/

/-- Settles O35, by induction on the block's cells. -/
theorem runBlockRenders : Obligations.RunBlockRenders := by
  intro view n cells s hu hview hholds hends
  obtain ⟨k, hk, hrun⟩ := run_renders (runAhead_enter hu hview hholds hends)
  have hlen : cells.length ≤ 256 := by omega
  refine ⟨_, k, exec_runBlock_accepted hview s, by omega, ?_⟩
  rw [hrun]
  simp [rendered, enter]

/-- Settles O43, by the cases of a step. -/
theorem stepKeepsOutputInvariant : Obligations.StepKeepsOutputInvariant := by
  intro s t hinv h hstep
  obtain ⟨-, -, rfl⟩ | ⟨-, -, rfl⟩ | ⟨-, -, -, rfl⟩ | ⟨-, -, -, -, rfl⟩ | ⟨-, -, hidx, c, -, -, harm⟩ |
    ⟨-, -, -, rfl⟩ | ⟨-, -, r, rest, -, hexec⟩ | ⟨-, -, a, c, rest, -, rfl⟩ | ⟨-, -, rest, -, rfl⟩ := step_cases s t hstep
  · exact outputInv_of_same h rfl rfl
  · exact outputInv_of_same h rfl rfl
  · exact outputInv_of_same h rfl rfl
  · exact outputInv_of_same h rfl rfl
  · have hlt : s.idx.toNat < 256 :=
      lt_of_le_of_ne hinv.idxInWindow fun heq => hidx (BitVec.eq_of_toNat_eq heq)
    exact armEffect_outputInv h (lt_of_le_of_lt hinv.defcntCounted hlt) harm
  · exact h
  · exact exec_decodeCommand_outputInv (s := { s with host := rest }) (outputInv_of_same h rfl rfl) r hexec
  · exact outputInv_of_same h rfl rfl
  · exact outputInv_of_cleared rfl rfl

/-- Settles O31, by the 16 rows of the tag table. -/
theorem dispatchFollowsTagMap : Obligations.DispatchFollowsTagMap := fun _ s hc => exec_decodeCell_dispatches hc s

/-- Settles O24: the range check passes. -/
theorem runBlockEnters : Obligations.RunBlockEnters := fun _ _ s hview => exec_runBlock_accepted hview s

/-- Settles O27: the arm emits nothing. -/
theorem skipArm : Obligations.SkipArm := fun _ _ => rfl

/-- Settles O28: each arm's text is that of its payload with tag 0. -/
theorem textArms : Obligations.TextArms := by
  intro p s
  have harm (k : Option ColourClass) (tag : BitVec 4) := congrArg advanceIdx (textArm_textCell k p tag s)
  exact ⟨congrArg Host.Outcome.next (harm (some .a) 1#4), congrArg Host.Outcome.next (harm (some .c) 4#4),
    congrArg Host.Outcome.next (harm (some .d) 7#4), congrArg Host.Outcome.next (harm (some .e) 9#4),
    congrArg Host.Outcome.next (harm (some .e) 10#4), congrArg Host.Outcome.next (harm (some .e) 11#4),
    congrArg Host.Outcome.next (harm (some .f) 12#4), congrArg Host.Outcome.next (harm none 13#4),
    congrArg Host.Outcome.next (harm none 14#4)⟩

/-- Settles O29: each arm's number is the value of its cell, without bit 4. -/
theorem numericArms : Obligations.NumericArms := by
  intro v b s
  have harm (k : ColourClass) (tag : BitVec 4) := congrArg advanceIdx (numArm_numCell k v b tag s)
  exact ⟨congrArg Host.Outcome.next (harm .a 2#4), congrArg Host.Outcome.next (harm .c 5#4),
    congrArg Host.Outcome.next (harm .c 6#4), congrArg Host.Outcome.next (harm .a 8#4),
    congrArg Host.Outcome.next (harm .e 15#4)⟩

/-- Settles O30, by the test DEFCNT ≠ 0. -/
theorem definitionArm : Obligations.DefinitionArm := by
  intro p s
  have harm : exec (.cellTag3DefB p) s = .next (advanceIdx (Machine.definitionArm (textCell p 3#4) s)) := rfl
  rw [harm, definitionArm_textCell]
  refine ⟨fun hfirst => ?_, fun hlater => ?_⟩
  · rw [breakEvents_of_first hfirst, hfirst]
    rfl
  · rw [breakEvents_of_later hlater]
    rfl

/-- Settles O33: a step that reads the zero cell runs the sentinel. -/
theorem sentinelEndsRun : Obligations.SentinelEndsRun := by
  have hend (s : State) : exec .sentinel s = .next { s with phase := .idle, status := 0x08#8 } := by
    rw [← runStatus_sentinel]
    rfl
  exact ⟨hend, fun s hu hp hidx hread => (step_of_cell hu hp hidx hread).trans (hend s)⟩

/-- Settles O34: the boundary is tested before the read. -/
theorem windowEndsRun : Obligations.WindowEndsRun := by
  intro s hu hp hidx
  rw [step_of_window_end hu hp hidx, endRun, runStatus_windowEnd]

end Sys2Proof.BlockInterpreter
end

-- ==== Proofs of 60_exceptions.md ====
section
/-! PROOFS. The statements of 60_exceptions.md: every command completes and its errors are reported in STATUS (R170 to R177),
a command in progress is not interrupted (R180), and between commands the RPD holds its state (R186). -/

open Sys2Proof Sys2Proof.Machine

namespace Sys2Proof.Exceptions

/-! ### The end of a command in progress -/

theorem not_isIdle_cases {s : State} (h : ¬ s.isIdle) :
    s.unpacking = true ∨ (s.unpacking = false ∧ s.phase = .running) := by
  cases hu : s.unpacking with
  | true => exact .inl rfl
  | false =>
    cases hp : s.phase with
    | idle => exact absurd ⟨hu, hp⟩ h
    | running => exact .inr ⟨rfl, rfl⟩

/-- A codeword takes at least 4 of the 28 stream bits, so an UNPACK in progress ends in at most eight steps. -/
theorem unpacking_ends {s : State} (h : s.Inv) (hu : s.unpacking = true) :
    ∃ k t, k ≤ 8 ∧ Sys2Proof.core.run k s = .next t ∧ t.isIdle ∧ t.host = s.host := by
  have hlen := Registers.unpackFrom_length_le 7 (streamFrom s.unpackCell s.pos)
  have hrun := WordCodec.run_unpacking (fuel := 7) hu (by omega)
  exact ⟨_, _, Nat.succ_le_succ hlen, hrun, ⟨rfl, h.oneCommand hu⟩, rfl⟩

/-- The cells of a run's window from the next one to its end, as they stand in the store. -/
def windowAhead (s : State) : List Cell :=
  (List.range (256 - s.idx.toNat)).map fun k =>
    (s.store.read (s.view.base + (256 * s.blk + s.idx.toNat + k))).getD 0#32

@[simp] theorem windowAhead_length (s : State) : (windowAhead s).length = 256 - s.idx.toNat := by
  rw [windowAhead, List.length_map, List.length_range]

/-- Under the host's duty of R31 every cell of the window ahead is in the store. -/
theorem read_eq_windowAhead {s : State} (h : s.Inv) (hp : s.phase = .running) (hstore : s.viewInStore) {k : Nat}
    (hk : k < 256 - s.idx.toNat) :
    s.store.read (s.view.base + (256 * s.blk + s.idx.toNat + k)) = (windowAhead s)[k]? := by
  have hview := h.windowInView hp
  obtain ⟨c, hread⟩ := Option.isSome_iff_exists.1 (hstore (256 * s.blk + s.idx.toNat + k) (by omega))
  rw [windowAhead, List.getElem?_map, List.getElem?_range hk, Option.map_some, hread, Option.getD_some]

/-- A run in progress has the rest of its window ahead. -/
theorem runAhead_windowAhead {s : State} (h : s.Inv) (hu : s.unpacking = false) (hp : s.phase = .running)
    (hstore : s.viewInStore) : BlockInterpreter.RunAhead (windowAhead s) s where
  notUnpacking := hu
  running := hp
  defcntCounted := h.defcntCounted
  windowInView := h.windowInView hp
  holds := fun _ hk => read_eq_windowAhead h hp hstore (windowAhead_length s ▸ hk)
  ends := .inl (by rw [windowAhead_length, Nat.add_sub_cancel' h.idxInWindow])

/-- A run in progress ends in at most one step for each cell of its window and one for the window's end. -/
theorem running_ends {s : State} (h : s.Inv) (hu : s.unpacking = false) (hp : s.phase = .running)
    (hstore : s.viewInStore) :
    ∃ k t, k ≤ 257 ∧ Sys2Proof.core.run k s = .next t ∧ t.isIdle ∧ t.host = s.host := by
  obtain ⟨k, hk, hrun⟩ := BlockInterpreter.run_renders (runAhead_windowAhead h hu hp hstore)
  rw [windowAhead_length] at hk
  exact ⟨k, _, by omega, hrun, ⟨hu, rfl⟩, rfl⟩

/-! ### The host's moves during a command -/

/-- The state with other moves of the host waiting. -/
def withMoves (moves : List HostMove) (s : State) : State := { s with host := moves }

/-- The outcome with other moves of the host waiting in its next state, if it has one. -/
def outcomeWithMoves (moves : List HostMove) : Host.Outcome State Fault Refusal → Host.Outcome State Fault Refusal
  | .next s => .next (withMoves moves s)
  | .fault f => .fault f
  | .refused r => .refused r

theorem stepUnpack_withMoves (moves : List HostMove) (s : State) :
    stepUnpack (withMoves moves s) = outcomeWithMoves moves (stepUnpack s) := by
  by_cases hend : streamFrom s.unpackCell s.pos = 0#32
  · rw [stepUnpack, stepUnpack, if_pos hend]
    exact if_pos hend
  · rw [stepUnpack, stepUnpack, if_neg hend, exec_decodeCodeword, exec_decodeCodeword]
    exact if_neg hend

/-- No cell's instruction looks at the host's moves. -/
theorem exec_decodeCell_withMoves (moves : List HostMove) (c : Cell) (s : State) :
    exec (decodeCell c) (withMoves moves s) = outcomeWithMoves moves (exec (decodeCell c) s) := by
  by_cases hc : c = 0#32
  · rw [hc, exec_decodeCell_zero, exec_decodeCell_zero]
    rfl
  · rw [BlockInterpreter.exec_decodeCell_dispatches hc, BlockInterpreter.exec_decodeCell_dispatches hc]
    rfl

theorem memRead_withMoves (moves : List HostMove) (s : State) (a : Nat) : memRead (withMoves moves s) a = memRead s a := rfl

theorem stepBlock_withMoves (moves : List HostMove) (s : State) :
    stepBlock (withMoves moves s) = outcomeWithMoves moves (stepBlock s) := by
  have hindex : nextCellIndex (withMoves moves s) = nextCellIndex s := rfl
  have hidx : (withMoves moves s).idx = s.idx := rfl
  rw [stepBlock, stepBlock, hindex, memRead_withMoves, hidx]
  split
  · rfl
  · cases memRead s (nextCellIndex s) with
    | error f => rfl
    | ok c => exact exec_decodeCell_withMoves moves c s

/-- A command in progress goes on before the host is looked at (92_eei_decisions.md D1). -/
theorem step_withMoves {s : State} (h : ¬ s.isIdle) (moves : List HostMove) :
    step (withMoves moves s) = outcomeWithMoves moves (step s) := by
  obtain hu | ⟨hu, hp⟩ := not_isIdle_cases h
  · rw [step_of_unpacking s hu, step_of_unpacking (withMoves moves s) hu, stepUnpack_withMoves]
  · rw [step_of_running s hu hp, step_of_running (withMoves moves s) hu hp, stepBlock_withMoves]

/-! ### The end of a PACK, by the result of its loop -/

section Pack

variable {w : List CHAR} {r : PackRegs}

theorem exec_pack_of_error {e : ErrorKind} {j : Nat} (h : packLoop lookup w 0 PackRegs.zero = .error (e, j)) (s : State) :
    exec (.pack w) s = .next (releaseCodec (raise e j s)) := by
  rw [Scope.exec_pack, h]
  rfl

/-- What the loop left in ACC and NB is forgotten at the end of the command. -/
theorem exec_pack_of_acc_zero (h : packLoop lookup w 0 PackRegs.zero = .ok r) (hacc : r.acc = 0#28) (s : State) :
    exec (.pack w) s = .next (releaseCodec (raise .emptyWord 0 s)) := by
  rw [Scope.exec_pack, h, packResult, finishPack, if_pos hacc]
  rfl

theorem exec_pack_of_acc_ne_zero (h : packLoop lookup w 0 PackRegs.zero = .ok r) (hacc : r.acc ≠ 0#28) (s : State) :
    exec (.pack w) s =
      .next (releaseCodec { s with resCell := packedCell r.acc r.nb, status := okStatus }) := by
  rw [Scope.exec_pack, h, packResult, finishPack, if_neg hacc]
  rfl

end Pack

/-! ### The first symbol that PACK rejects -/

theorem four_mul_length_le_wordBits (ps : List Position) : 4 * ps.length ≤ (wordBits ps).length := by
  induction ps with
  | nil => exact Nat.le_refl 0
  | cons p ps ih =>
    have hmin := (Registers.codeword_length_bounds (codewordOf p)).1
    rw [WordCodec.wordBits_cons, List.length_append, LetterTable.codewordBits_length, List.length_cons]
    omega

/-- No word of more than seven symbols fits (41_word_codec.md R101). -/
theorem length_le_seven_of_fits {ps : List Position} (hfit : (wordBits ps).length ≤ 28) : ps.length ≤ 7 := by
  have hmin := four_mul_length_le_wordBits ps
  omega

/-- PACK's loop reaches the character behind a word that fits, with the word's bits in ACC and NB. -/
theorem packLoop_reaches {ps : List Position} (hfit : (wordBits ps).length ≤ 28) (rest : List CHAR) :
    ∃ r, WordCodec.Accumulated r (wordBits ps) ∧
      packLoop lookup (ps.map symbolAt ++ rest) 0 PackRegs.zero = packLoop lookup rest ps.length r := by
  obtain ⟨r, hr, hloop⟩ := WordCodec.packLoop_accumulates ps WordCodec.accumulated_zero hfit
  exact ⟨r, hr, by rw [hloop, Nat.zero_add]⟩

theorem packLoop_unknownSymbol {ch : CHAR} (hch : lookup ch = none) (rest : List CHAR) (j : Nat) (r : PackRegs) :
    packLoop lookup (ch :: rest) j r = .error (.unknownSymbol, j) := by
  rw [packLoop, hch]

theorem packLoop_wordTooLong {p : Position} {r : PackRegs} (hlong : 28 < r.nb + (codewordOf p).length) (rest : List CHAR)
    (j : Nat) : packLoop lookup (symbolAt p :: rest) j r = .error (.wordTooLong, j) := by
  rw [packLoop, WordCodec.lookup_symbolAt]
  exact if_pos hlong

/-! ### Whether PACK's cell is zero -/

/-- If the loop accepts a word, ACC and NB hold the bits of some codewords behind those it started with. -/
theorem accumulated_of_packLoop_ok {w : List CHAR} {j : Nat} {r r' : PackRegs} {bits : List Bool}
    (hr : WordCodec.Accumulated r bits) (h : packLoop lookup w j r = .ok r') :
    ∃ bits', WordCodec.Accumulated r' bits' := by
  induction w generalizing j r bits with
  | nil =>
    cases h
    exact ⟨bits, hr⟩
  | cons ch rest ih =>
    rw [packLoop] at h
    split at h
    · cases h
    · next p _ =>
      split at h
      · cases h
      · exact ih (hr.append p) h

/-- ACC is zero if all the bits are: the converse of `Accumulated.acc_ne_zero`. -/
theorem acc_eq_zero {r : PackRegs} {bits : List Bool} (h : WordCodec.Accumulated r bits) (hbits : true ∉ bits) :
    r.acc = 0#28 := by
  refine BitVec.eq_of_getLsbD_eq fun k hk => ?_
  rw [h.acc_bit k hk, BitVec.getLsbD_zero]
  by_cases hin : k < bits.reverse.length
  · rw [List.getD_eq_getElem _ _ hin]
    by_contra hbit
    rw [Bool.not_eq_false] at hbit
    exact hbits (List.mem_reverse.1 (hbit ▸ List.getElem_mem hin))
  · exact List.getD_eq_default _ _ (Nat.le_of_not_lt hin)

/-- A nonzero ACC gives a nonzero cell: one of the accumulated bits is 1, and all of them are in the cell's stream. -/
theorem packedCell_ne_zero {r : PackRegs} {bits : List Bool} (h : WordCodec.Accumulated r bits) (hfit : bits.length ≤ 28)
    (hacc : r.acc ≠ 0#28) : packedCell r.acc r.nb ≠ 0#32 := by
  have hbit : true ∈ bits := by_contra fun hnone => hacc (acc_eq_zero h hnone)
  obtain ⟨k, hk, hget⟩ := WordCodec.getD_eq_true_of_mem hbit
  intro hzero
  rw [← WordCodec.streamBit_packedCell h hfit (by omega), hzero] at hget
  simp [streamBit] at hget

/-- The cell of an accepted word is zero only if ACC is: PACK never writes the sentinel (41_word_codec.md R103). -/
theorem packedCell_ne_zero_of_packLoop_ok {w : List CHAR} {r : PackRegs}
    (h : packLoop lookup w 0 PackRegs.zero = .ok r) (hacc : r.acc ≠ 0#28) : packedCell r.acc r.nb ≠ 0#32 := by
  obtain ⟨bits, hr⟩ := accumulated_of_packLoop_ok WordCodec.accumulated_zero h
  have hnb : r.nb ≤ 28 := WordCodec.packLoop_nb_le (by decide) h
  exact packedCell_ne_zero hr (hr.nb_eq ▸ hnb) hacc

/-! ### Words of spaces -/

theorem chars_of_spaces (n : Nat) :
    List.replicate n (CHAR.glyph .space) = (List.replicate n (0 : Position)).map symbolAt := by
  have hspace : symbolAt 0 = .glyph .space := rfl
  rw [List.map_replicate, hspace]

theorem wordBits_spaces_length (n : Nat) : (wordBits (List.replicate n 0)).length = 4 * n := by
  induction n with
  | zero => rfl
  | succ n ih =>
    have hspace : (codewordBits 0).length = 4 := rfl
    rw [List.replicate_succ, WordCodec.wordBits_cons, List.length_append, ih, hspace]
    omega

theorem true_notMem_wordBits_spaces (n : Nat) : true ∉ wordBits (List.replicate n 0) := by
  rw [WordCodec.true_mem_wordBits_iff]
  rintro ⟨p, hp, hne⟩
  exact hne (List.eq_of_mem_replicate hp)

/-! ### STATUS of an error -/

/-- What an error of PACK's loop reports: one of its two codes, and no end of a run. -/
theorem errorStatus_fields_of_packLoop {e : ErrorKind} (j : Nat) (he : e = .unknownSymbol ∨ e = .wordTooLong) :
    statusEnd (errorStatus e j) = 0#2 ∧ (statusCode (errorStatus e j) = 1#3 ∨ statusCode (errorStatus e j) = 2#3) := by
  rw [errorStatus, Registers.statusEnd_mkStatus, Registers.statusCode_mkStatus]
  obtain rfl | rfl := he
  · exact ⟨rfl, .inl rfl⟩
  · exact ⟨rfl, .inr rfl⟩

theorem errorStatus_emptyWord : errorStatus .emptyWord 0 = 0x03#8 := by decide

theorem errorStatus_outOfRangeBlock : errorStatus .outOfRangeBlock 0 = 0x04#8 := by decide

theorem errorStatus_illegalCommand : errorStatus .illegalCommand 0 = 0x05#8 := by decide

theorem okStatus_eq : okStatus = 0x00#8 := by decide

/-! ### The obligations -/

/-- Settles O51, by the command in progress: the rest of a run's window is rendered as in O35, and an UNPACK takes its
codewords. -/
theorem commandsAlwaysEnd : Obligations.CommandsAlwaysEnd := by
  intro s h hbusy hduty
  obtain hu | ⟨hu, hp⟩ := not_isIdle_cases hbusy
  · obtain ⟨k, t, hk, hend⟩ := unpacking_ends h hu
    exact ⟨k, t, hk.trans (by decide), hend⟩
  · exact running_ends h hu hp (hduty hp)

/-- Settles O15: the loop gets to the character, and its lookup fails before its length matters. -/
theorem packUnknownSymbol : Obligations.PackUnknownSymbol := by
  intro ps ch rest s hfit hch
  obtain ⟨r, -, hloop⟩ := packLoop_reaches hfit (ch :: rest)
  rw [packLoop_unknownSymbol ((LetterTable.lookup_eq_none_iff ch).2 hch)] at hloop
  exact ⟨length_le_seven_of_fits hfit, exec_pack_of_error hloop s⟩

/-- Settles O16: the loop gets to the symbol with NB at the bits before it, and the bound fails. -/
theorem packWordTooLong : Obligations.PackWordTooLong := by
  intro ps p rest s hfit hlong
  obtain ⟨r, hr, hloop⟩ := packLoop_reaches hfit (symbolAt p :: rest)
  rw [← hr.nb_eq, LetterTable.codewordBits_length] at hlong
  rw [packLoop_wordTooLong hlong] at hloop
  exact ⟨length_le_seven_of_fits hfit, exec_pack_of_error hloop s⟩

/-- Settles O18, by the result of PACK's loop and the test of ACC. -/
theorem packOutcomes : Obligations.PackOutcomes := by
  intro w s
  cases hloop : packLoop lookup w 0 PackRegs.zero with
  | error failure =>
    obtain ⟨e, j⟩ := failure
    obtain ⟨hend, hcode⟩ := errorStatus_fields_of_packLoop j (packLoop_error lookup w 0 PackRegs.zero e j hloop).1
    exact ⟨s.resCell, errorStatus e j, exec_pack_of_error hloop s, .inr ⟨rfl, hend, hcode.imp_right .inl⟩⟩
  | ok r =>
    by_cases hacc : r.acc = 0#28
    · exact ⟨s.resCell, errorStatus .emptyWord 0, exec_pack_of_acc_zero hloop hacc s,
        .inr ⟨rfl, by decide, .inr (.inr (by decide))⟩⟩
    · exact ⟨packedCell r.acc r.nb, okStatus, exec_pack_of_acc_ne_zero hloop hacc s,
        .inl ⟨okStatus_eq, packedCell_ne_zero_of_packLoop_ok hloop hacc, WordCodec.cellTag_packedCell _ _⟩⟩

/-- Settles O49: a step of a command in progress commutes with exchanging the host's moves. -/
theorem commandNotInterrupted : Obligations.CommandNotInterrupted := by
  intro s moves hbusy
  have hstep : step { s with host := moves } = outcomeWithMoves moves (step s) := step_withMoves hbusy moves
  refine ⟨fun t ht => ?_, fun f hf => ?_⟩
  · rw [hstep, ht]
    rfl
  · rw [hstep, hf]
    rfl

/-- Settles O17: up to seven spaces fit and leave ACC zero. -/
theorem packEmptyWord : Obligations.PackEmptyWord := by
  intro n s hn
  have hfit : (wordBits (List.replicate n 0)).length ≤ 28 := by
    rw [wordBits_spaces_length]
    omega
  obtain ⟨r, hok, hr⟩ := WordCodec.packLoop_of_fits hfit
  have hacc : r.acc = 0#28 := acc_eq_zero hr (true_notMem_wordBits_spaces n)
  rw [chars_of_spaces, exec_pack_of_acc_zero hok hacc, raise, errorStatus_emptyWord]

/-- Settles O25: the range check fails. -/
theorem runBlockOutOfRange : Obligations.RunBlockOutOfRange := by
  intro view n s hview
  rw [Scope.exec_runBlock, if_pos ((windowOutside_iff view n).2 hview), raise, errorStatus_outOfRangeBlock]

/-- Settles O26. -/
theorem reservedCommand : Obligations.ReservedCommand := by
  intro s
  rw [Scope.exec_reservedCmd, raise, errorStatus_illegalCommand]

/-- Settles O38: UNPACK's loop always answers a next state, and every other meaning answers one outright. -/
theorem everyMeaningCompletes : Obligations.EveryMeaningCompletes := by
  intro i s
  cases i with
  | unpack c =>
    obtain ⟨pos, hunpack⟩ := Scope.exec_unpack c s
    exact ⟨_, hunpack⟩
  | _ => exact ⟨_, rfl⟩

/-- Settles O48: the idle RPD makes the host's next move, and there is none. -/
theorem idleHoldsState : Obligations.IdleHoldsState := by
  intro s hidle hhost
  rw [step_of_idle s hidle.1 hidle.2]
  simp only [stepIdle, hhost]

end Sys2Proof.Exceptions
end

-- ==== Proofs of 70_reset_and_hazards.md ====
section
/-! PROOFS. The statements of 70_reset_and_hazards.md: the reset values and power-on between commands (R190, R191), and that a
command other than RUN_BLOCK is one step, with no UNPACK ever seen half done (R195, R196). -/

open Sys2Proof Sys2Proof.Machine

namespace Sys2Proof.ResetAndHazards

/-! ### The commands that are one step -/

/-- The codes of the three commands other than RUN_BLOCK (30_encoding.md R61). -/
theorem decodeCommand_of_ne_runBlock {r : Request} (hr : r.cmd ≠ 0b10#2) :
    decodeCommand r = .pack r.word ∨ decodeCommand r = .unpack r.cell ∨ decodeCommand r = .reservedCmd := by
  obtain ⟨hpack, hunpack, -, hreserved⟩ := Encodings.commandCodes r
  have hcodes : ∀ code : BitVec 2, code ≠ 0b10#2 → code = 0b00#2 ∨ code = 0b01#2 ∨ code = 0b11#2 := by decide
  exact (hcodes r.cmd hr).imp hpack (.imp hunpack hreserved)

@[simp] theorem packResult_phase (result : Except (ErrorKind × Nat) PackRegs) (s : State) :
    (packResult result s).phase = s.phase := by
  obtain ⟨e, j, -, h⟩ | ⟨r, -, -, h⟩ | ⟨r, -, -, h⟩ := packResult_cases result s <;> rw [h] <;> rfl

@[simp] theorem packResult_host (result : Except (ErrorKind × Nat) PackRegs) (s : State) :
    (packResult result s).host = s.host := by
  obtain ⟨e, j, -, h⟩ | ⟨r, -, -, h⟩ | ⟨r, -, -, h⟩ := packResult_cases result s <;> rw [h] <;> rfl

/-- PACK and the reserved code do not touch the mark of an UNPACK in progress, and UNPACK clears it again at its end. -/
theorem exec_decodeCommand_ends {r : Request} (hr : r.cmd ≠ 0b10#2) {s : State} (hu : s.unpacking = false) :
    ∃ t, exec (decodeCommand r) s = .next t ∧ t.unpacking = false ∧ t.phase = s.phase ∧ t.host = s.host := by
  obtain hdec | hdec | hdec := decodeCommand_of_ne_runBlock hr <;> rw [hdec]
  · exact ⟨_, Scope.exec_pack r.word s, by simp [hu], by simp, by simp⟩
  · obtain ⟨pos, hunpack⟩ := Scope.exec_unpack r.cell s
    exact ⟨_, hunpack, endUnpack_unpacking _, by simp, by simp⟩
  · exact ⟨_, Scope.exec_reservedCmd s, by simp [hu], by simp, by simp⟩

/-! ### No step opens an UNPACK -/

theorem exec_decodeCommand_unpacking (r : Request) {s t : State} (hu : s.unpacking = false)
    (hexec : exec (decodeCommand r) s = .next t) : t.unpacking = false := by
  by_cases hr : r.cmd = 0b10#2
  · obtain ⟨-, -, hrun, -⟩ := Encodings.commandCodes r
    rw [hrun hr, Scope.exec_runBlock] at hexec
    cases hexec
    split <;> simp [hu]
  · obtain ⟨t', hnext, hu', -, -⟩ := exec_decodeCommand_ends hr hu
    rw [hnext] at hexec
    cases hexec
    exact hu'

theorem armEffect_unpacking {c : Cell} {s t : State} (h : ArmEffect c s t) : t.unpacking = s.unpacking := by
  obtain ⟨-, rfl⟩ | ⟨-, rfl⟩ | ⟨-, -, k, rfl⟩ | ⟨-, -, k, rfl⟩ := h <;> simp

/-! ### Power-on -/

/-- The idle RPD makes the host's power-on move. -/
theorem step_powerOn {s : State} (hidle : s.isIdle) {rest : List HostMove} (hhost : s.host = .powerOn :: rest) :
    step s = .next (powerOn { s with host := rest }) := by
  obtain ⟨hu, hp⟩ := hidle
  rw [step_of_idle s hu hp]
  simp only [stepIdle, hhost]

/-! ### The obligations -/

/-- Settles O37: each command but RUN_BLOCK ends in the step that issues it; that no step opens an UNPACK is by the cases of a
step. -/
theorem commandsAtomic : Obligations.CommandsAtomic := by
  refine ⟨fun s r rest hidle hhost hr => ?_, fun s t hu hstep => ?_⟩
  · obtain ⟨hunpacking, hphase⟩ := hidle
    obtain ⟨hissue, -, -⟩ := Encodings.stepRunsDecoded
    obtain ⟨t, hexec, htu, htp, hth⟩ := exec_decodeCommand_ends (s := { s with host := rest }) hr hunpacking
    exact ⟨t, (hissue s r rest hunpacking hphase hhost).trans hexec, ⟨htu, htp.trans hphase⟩, hth⟩
  · obtain ⟨-, -, rfl⟩ | ⟨hu', -, -⟩ | ⟨-, -, -, rfl⟩ | ⟨-, -, -, -, rfl⟩ | ⟨-, -, -, c, -, -, harm⟩ | ⟨-, -, -, rfl⟩ |
      ⟨-, -, r, rest, -, hexec⟩ | ⟨-, -, a, c, rest, -, rfl⟩ | ⟨-, -, rest, -, rfl⟩ := step_cases s t hstep
    · exact endUnpack_unpacking s
    · exact absurd hu' (by simp [hu])
    · exact (endRun_unpacking _ s).trans hu
    · exact (endRun_unpacking _ s).trans hu
    · exact (armEffect_unpacking harm).trans hu
    · exact hu
    · exact exec_decodeCommand_unpacking r (s := { s with host := rest }) hu hexec
    · exact (hostLoad_unpacking a c _).trans hu
    · exact powerOn_unpacking _

/-- Settles O39, register by register. -/
theorem resetValues : Obligations.ResetValues :=
  ⟨reset_defcnt, reset_phase, reset_blk, reset_idx, reset_status, reset_out, reset_resCell, reset_resSyms⟩

/-- Settles O41: at reset OUT is empty and DEFCNT is 0. -/
theorem resetMeetsInvariants : Obligations.ResetMeetsInvariants :=
  ⟨Registers.reset_inv, BlockInterpreter.outputInv_of_cleared reset_out reset_defcnt⟩

/-- Settles O47: the power-on move's state, register by register. -/
theorem powerOnResets : Obligations.PowerOnResets := fun _ _ hidle hhost =>
  ⟨_, step_powerOn hidle hhost, powerOn_defcnt _, powerOn_phase _, powerOn_blk _, powerOn_idx _, powerOn_status _,
    powerOn_out _, powerOn_resCell _, powerOn_resSyms _, powerOn_unpacking _, powerOn_store _, powerOn_host _⟩

end Sys2Proof.ResetAndHazards
end
